-- ==== Sys2Proof/Word.lean ====
section
/-! DEFINITION. The word types of the PTB: a 32-bit register or command word (spec/10_state.md R101,
spec/30_encoding.md R300) and a byte of DMEM (spec/20_memory.md R200). -/

namespace Sys2Proof

/-- A 32-bit port register or command word. -/
abbrev Word := BitVec 32

/-- One byte of DMEM. -/
abbrev Byte := BitVec 8

/-- Bits `hi` down to `lo` of an unsigned number, the `v[hi:lo]` of spec/00_scope.md R11. -/
def bits (v hi lo : Nat) : Nat := v / 2 ^ lo % 2 ^ (hi + 1 - lo)

end Sys2Proof
end

