-- ==== Sys2Proof/Machine/Types.lean ====
section
/-! DEFINITION. The plain data of the PTB: c16 samples, the enumerated OPEN parameters, and the records
that CFG, the descriptors and the PUSCH PDU are decoded into (spec/30_encoding.md R330 to R341). Numbers
are Nat; what the spec reads bit by bit stays a bit vector. -/

namespace Sys2Proof.Machine

/-- A complex sample: a pair of i16 values (spec/00_scope.md R13). -/
structure C16 where
  re : BitVec 16
  im : BitVec 16
deriving DecidableEq, Repr, Inhabited

/-- `last_ndi` of a HARQ process after reset (spec/42_pusch_builder.md R602). -/
inductive NdiAfterReset where
  | zero
  | none
deriving DecidableEq, Repr, Inhabited

/-- The byte cap of an LCP first-pass request (spec/41_lcp_bsr.md R515). -/
inductive FirstPassCap where
  | bj
  | pbr
deriving DecidableEq, Repr, Inhabited

/-- The negation of -32768 (spec/43_re_mapper.md R722). -/
inductive NegMin where
  | wrap
  | sat
deriving DecidableEq, Repr, Inhabited

/-- The absolute value of -32768 (spec/45_llr.md R902). -/
inductive AbsMin where
  | wrap
  | sat
  | exact
deriving DecidableEq, Repr, Inhabited

/-- What one implementation fixes and the spec leaves OPEN as a size or a named choice
(spec/00_scope.md R9, R10). The types hold the spec's bounds: DMEM_SIZE at most 2^26, N_PDU in
1..255, N_PORTS at least 2. No step writes it (log 2). -/
structure Build where
  dmemSizeFin : Fin (2 ^ 26 + 1)
  nPduPred : Fin 255
  nPortsExtra : Nat
  ndiAfterReset : NdiAfterReset
  firstPassCap : FirstPassCap
  negMin : NegMin
  absMin : AbsMin
deriving DecidableEq, Repr, Inhabited

/-- One row of the time-domain allocation table (spec/10_state.md R108). -/
structure TdraRow where
  k2 : Nat
  mappingType : Nat
  sliv : Nat
deriving DecidableEq, Repr, Inhabited

/-- The configuration register set CFG (spec/10_state.md R107, R108). -/
structure CfgRegs where
  mu : Nat
  duplex : Nat
  nRbCarrier : Nat
  fftSize : Nat
  firstCarrierOffset : Nat
  bwpStart : Nat
  bwpSize : Nat
  nAnt : Nat
  maxRank : Nat
  durationRxToTx : Nat
  tpEnabled : Nat
  msg3TpEnabled : Nat
  dmrsType : Nat
  dmrsMaxLength : Nat
  dmrsAddPos : Nat
  msg3DmrsAddPos : Nat
  dmrsTypeAPos : Nat
  dmrsScramblingId0 : Nat
  dmrsScramblingId1 : Nat
  ptrsEnabled : Nat
  ptrsMcs1 : Nat
  ptrsMcs2 : Nat
  ptrsMcs3 : Nat
  ptrsNrb0 : Nat
  ptrsNrb1 : Nat
  ptrsReOffset : Nat
  mcsTable : Nat
  mcsTableTp : Nat
  msg3Delta : Nat
  nTdra : Nat
  ulSlotMask : BitVec 160
  tdra : List TdraRow
deriving DecidableEq, Repr, Inhabited

/-- A grant descriptor (spec/30_encoding.md R333). -/
structure Grant where
  source : Nat
  harqPid : Nat
  ndi : Nat
  rv : Nat
  rnti : Nat
  rxFrame : Nat
  rxSlot : Nat
  tdraIndex : Nat
  riv : Nat
  mcs : Nat
  antennaPorts : Nat
  tpmi : Nat
  nLayers : Nat
  tpc : Nat
  allocType : Nat
  scid : Nat
  payloadAddr : Nat
  harqAckBits : Nat
  csiP1Bits : Nat
  csiP2Bits : Nat
deriving DecidableEq, Repr, Inhabited

/-- A PUSCH PDU descriptor (spec/30_encoding.md R331). -/
structure Pdu where
  pduBitMap : BitVec 16
  rnti : Nat
  bwpStart : Nat
  bwpSize : Nat
  rbStart : Nat
  rbSize : Nat
  startSymbol : Nat
  nrOfSymbols : Nat
  mcsIndex : Nat
  mcsTable : Nat
  modOrder : Nat
  nLayers : Nat
  codeRate : Nat
  tbsBytes : Nat
  harqPid : Nat
  ndi : Nat
  rv : Nat
  transformPrecoding : Nat
  ulDmrsSymbPos : BitVec 16
  dmrsConfigType : Nat
  numDmrsCdmGrpsNoData : Nat
  dmrsPorts : BitVec 16
  ulDmrsScramblingId : Nat
  scid : Nat
  dmrsDouble : Nat
  ptrsK : Nat
  ptrsL : Nat
  ptrsSymbPos : BitVec 16
  ptrsReOffset : Nat
  ptrsLayer : Nat
  tpmi : Nat
  nAnt : Nat
  tpcDelta : Nat
  mappingType : Nat
  txPower : BitVec 16
  harqAckBits : Nat
  csiP1Bits : Nat
  csiP2Bits : Nat
  payloadAddr : Nat
  frame : Nat
  slot : Nat
  reserved : Nat
deriving DecidableEq, Repr, Inhabited

/-- An LC config descriptor (spec/30_encoding.md R334). -/
structure LcDesc where
  lcid : Nat
  priority : Nat
  lcg : Nat
  flags : Nat
  pbrMs : Nat
  bucketSize : Nat
  frame : Nat
  slot : Nat
  reserved : Nat
deriving DecidableEq, Repr, Inhabited

/-- An LCP descriptor (spec/30_encoding.md R335). -/
structure LcpDesc where
  outAddr : Nat
  buflen : Nat
  frame : Nat
  slot : Nat
  reserved : Nat
deriving DecidableEq, Repr, Inhabited

/-- A BSR descriptor (spec/30_encoding.md R336). -/
structure BsrDesc where
  outAddr : Nat
  space : Nat
  lcgBytes : List Nat
  lcgBestPrio : List Nat
deriving DecidableEq, Repr, Inhabited

/-- A map descriptor (spec/30_encoding.md R337). -/
structure MapDesc where
  pduAddr : Nat
  dataAddr : List Nat
  dataLen : Nat
  dmrsAddr : Nat
  ptrsAddr : Nat
  gridAddr : Nat
deriving DecidableEq, Repr, Inhabited

/-- A precode descriptor (spec/30_encoding.md R338). -/
structure PrecodeDesc where
  pduAddr : Nat
  layerGridAddr : Nat
  antGridAddr : Nat
deriving DecidableEq, Repr, Inhabited

/-- A layer-map descriptor (spec/30_encoding.md R339); `reserved` is the number its bytes 0x09 to 0x0B hold. -/
structure LayerMapDesc where
  inAddr : Nat
  nIn : Nat
  nLayers : Nat
  reserved : Nat
  outAddr : List Nat
deriving DecidableEq, Repr, Inhabited

/-- A transform-precoding descriptor (spec/30_encoding.md R340). -/
structure TpDesc where
  pduAddr : Nat
  inAddr : Nat
  outAddr : Nat
  n : Nat
deriving DecidableEq, Repr, Inhabited

/-- An LLR descriptor (spec/30_encoding.md R341). -/
structure LlrDesc where
  rxAddr : Nat
  magAddr : List Nat
  outAddr : Nat
  nbRe : Nat
deriving DecidableEq, Repr, Inhabited

/-- A row of an MCS table: the modulation order and `R * 10240`, or 0 for a reserved row
(spec/42_pusch_builder.md R620, R622). A code rate is at most 1 (spec/10_state.md R113). -/
structure McsRow where
  qm : Fin 256
  rate : Fin 10241
deriving DecidableEq, Repr, Inhabited

/-- A row of the antenna-port table: CDM groups without data (1 to 3), the DMRS ports as a bit set
(so they are in ascending order) and whether the DMRS is double-symbol (spec/42_pusch_builder.md R630). -/
structure AntPortRow where
  cdmPred : Fin 3
  ports : BitVec 12
  double : Bool
deriving DecidableEq, Repr, Inhabited

/-- A Gaussian integer `re + j * im`, an entry of a precoding matrix before its scale. -/
structure Gauss where
  re : Int
  im : Int
deriving DecidableEq, Repr, Inhabited

/-- One row of a precoding matrix: each entry of the row is `entries[v] / sqrt(norm)`
(spec/44_precoding_transform.md R830). -/
structure WRow where
  norm : Nat
  entries : List Gauss
deriving DecidableEq, Repr, Inhabited

/-- A precoding matrix, row by row: one row for each antenna (spec/44_precoding_transform.md R830). -/
structure WMatrix where
  norm : Nat
  entry : Nat → Nat → Gauss
deriving Inhabited

/-- The codes of FAULT_CODE (spec/60_exceptions.md R1002); the last three are the fatal assertions. -/
inductive FaultCode where
  | illegalCommand
  | reservedField
  | dmemRange
  | misaligned
  | lockNotHeld
  | selfDeadlock
  | badHandle
  | storeUnderflow
  | notInitialised
  | badConfig
  | badPdu
  | dataLength
  | dftSize
  | intRange
  | badArg
  | fatalInvalidEnum
  | fatalNull
  | fatalK2
deriving DecidableEq, Repr

/-- Why a command's step did not run to a normal end: it raised a fault or a fatal
(spec/60_exceptions.md R1020, R1021), or it is held on the locks of the slots named (R1030). -/
inductive Stop where
  | fault (code : FaultCode)
  | hold (slots : List Nat)
deriving DecidableEq, Repr

end Sys2Proof.Machine
end

