-- ==== Sys2Proof/Config.lean ====
section
/-! DEFINITION. What the spec leaves OPEN and what it leaves to the outside world, as constants with no
body: nothing can evaluate them, so whatever is proved holds for every legal value
(spec/00_scope.md R9, R10). Tables whose type admits more than the spec's legal tables are marked in
the log (13, 14, 15, 18); every one admits all of the legal ones. -/

namespace Sys2Proof.Config
open Sys2Proof.Machine

/-- The implementation that `State.reset` stands for (log 2). -/
opaque build : Build

/-- ANT_PORT_TABLE outside the fixed rows: by transform precoding, `dmrs_type`, `dmrs_max_length`, the
number of layers and the antenna-ports value; `none` is a reserved value (spec/42_pusch_builder.md R630). -/
opaque antPortTable : Bool → Nat → Nat → Nat → Nat → Option AntPortRow

/-- DMRS_POS_TABLE: the relative FRONT positions by mapping type, `ld`, the additional position, `l0`
and double (spec/42_pusch_builder.md R632, log 13). -/
opaque dmrsPosTable : Nat → Nat → Nat → Nat → Bool → List Nat

/-- MCS_TABLE_LOWSE, TS 38.214 Table 5.1.3.1-3 (spec/42_pusch_builder.md R620). -/
opaque mcsTableLowSe : Nat → McsRow

/-- MCS_TABLE_TP64, TS 38.214 Table 6.1.4.1-1 (spec/42_pusch_builder.md R620). -/
opaque mcsTableTp64 : Nat → McsRow

/-- MCS_TABLE_TPLOWSE, TS 38.214 Table 6.1.4.1-2 (spec/42_pusch_builder.md R620). -/
opaque mcsTableTpLowSe : Nat → McsRow

/-- BS5 as 30 thresholds: the last byte count that index `v + 1` covers, or `none` when no count is
beyond it (spec/41_lcp_bsr.md R541, log 14). -/
opaque bs5Steps : Vector (Option Nat) 30

/-- BS8 as 253 thresholds (spec/41_lcp_bsr.md R541, log 14). -/
opaque bs8Steps : Vector (Option Nat) 253

/-- W_TABLE: the matrices of four antenna ports for TPMI of 1 and more, by the number of layers and the
TPMI; `none` is an invalid TPMI (spec/44_precoding_transform.md R830, log 15). -/
opaque wTable : Nat → Nat → Option WMatrix

/-- PRECODE_NUM: the fixed-point product of a matrix row and the layer values
(spec/44_precoding_transform.md R832). -/
opaque precodeNum : WRow → List C16 → C16

/-- DFT_NUM: `dftNum m x k` is output `k` of the size-`m` transform of `x`
(spec/44_precoding_transform.md R821). -/
opaque dftNum : Nat → List C16 → Nat → C16

/-- P_PUSCH: the i16 transmit power, a function of the grant, without its TPC field, and of the other PDU
fields (spec/42_pusch_builder.md R650). -/
opaque pPusch : Grant → Pdu → BitVec 16

/-- The answer of `RLC.status` for draw number `n` and an LCID, once the listed answers are used up
(spec/20_memory.md R240, log 4). -/
opaque rlcStatus : Nat → Nat → Word

/-- The bytes `RLC.data_req` would return for draw number `n` and an LCID, before the cut to the number
asked for (spec/20_memory.md R240, log 4). -/
opaque rlcData : Nat → Nat → List Byte

/-- The racing bytes of the turn numbered `n` when no input names one, and what they are read as
(spec/20_memory.md R223, log 6). -/
opaque racing : Nat → List Host.Cell

/-- Which port gets the turn numbered `n` when no input names one (spec/60_exceptions.md R1030, log 5). -/
opaque arbiter : Nat → Nat

end Sys2Proof.Config
end

