-- ==== Sys2Proof/Machine/State.lean ====
section
/-! DEFINITION. The state of the PTB as plain data (spec/10_state.md), the reasons a step of the model can
stop, and the state after reset (spec/10_state.md R119). -/

namespace Sys2Proof.Machine

/-- The registers of one command port (spec/10_state.md R101). -/
structure Port where
  cmd : Word
  arg0 : Word
  arg1 : Word
  arg2 : Word
  arg3 : Word
  res0 : Word
  res1 : Word
  status : Word
  busy : Bool
deriving DecidableEq, Repr, Inhabited

/-- One entry of a slot record: a PDU type (u3, spec/30_encoding.md R311) and a 64-byte payload
(spec/10_state.md R111). -/
structure Entry where
  pduType : Nat
  payload : List Byte
deriving DecidableEq, Repr, Inhabited

/-- One slot record of the store (spec/10_state.md R110). `lock` is FREE (`none`) or the port that holds
it; `waiters` are the ports whose command is held on it (log 10). -/
structure SlotRec where
  lock : Option Nat
  waiters : List Nat
  tagFrame : Nat
  tagSlot : Nat
  numberPdus : Nat
  entries : List Entry
deriving DecidableEq, Repr, Inhabited

/-- One HARQ process (spec/10_state.md R113); `lastNdi` is 0, 1 or NONE, encoded 255. -/
structure HarqEntry where
  lastNdi : Nat
  tbsBytes : Nat
  codeRate : Nat
  modOrder : Nat
  round : Nat
deriving DecidableEq, Repr, Inhabited

/-- One logical channel (spec/10_state.md R114). -/
structure LcEntry where
  configured : Bool
  priority : Nat
  lcg : Nat
  pbrInf : Bool
  pbrMs : Nat
  bucketSize : Nat
  bj : Int
  lastUpdate : Nat
deriving DecidableEq, Repr, Inhabited

/-- One entry of the error log (spec/10_state.md R117). -/
structure LogEntry where
  code : Int
  frame : Nat
  slot : Nat
deriving DecidableEq, Repr, Inhabited

/-- Something the outside world does (log 1): the agent of a port writes an ARG register of it, writes its
CMD, or writes a DMEM byte (spec/20_memory.md R222); the PTB gives its next step to a port
(spec/20_memory.md R221), whose command reads the racing bytes listed in `drawn` as the values listed there
(spec/20_memory.md R223, log 6); the host asserts reset (spec/70_reset_and_hazards.md R1100). -/
inductive Input where
  | setArg (port : Nat) (index : Fin 4) (value : Word)
  | writeCmd (port : Nat) (word : Word)
  | pokeDmem (port : Nat) (addr : Nat) (value : Byte)
  | take (port : Nat) (drawn : List Host.Cell)
  | reset
deriving DecidableEq, Repr

/-- One answer of the RLC oracle: a status query reads `status`, a data request reads `data`, cut to the
number of bytes asked for (spec/20_memory.md R240, log 4). -/
structure RlcAnswer where
  status : Word
  data : List Byte
deriving DecidableEq, Repr, Inhabited

/-- The state of the machine. The fields from `build` on are the model's own (INVENTORY.md, State). -/
structure State where
  ports : List Port
  cfg : CfgRegs
  cfgValid : Bool
  initDone : Bool
  halted : Bool
  faultCode : BitVec 8
  faultPort : BitVec 8
  faultCmd : Word
  bsrRegularPending : Bool
  prevLcgData : BitVec 8
  prevBestPrio : Nat
  store : List SlotRec
  harq : List HarqEntry
  lc : List LcEntry
  errLog : List LogEntry
  mem : List Host.Cell
  build : Build
  cur : Nat
  inputs : List Input
  rlc : List RlcAnswer
  draws : Nat
deriving DecidableEq, Repr

/-- Why a step of the model stops. No command of the table ever stops so: the PTB's own faults and fatals
halt the PTB, which is a next state (spec/60_exceptions.md R1020). -/
inductive Fault where
  /-- Raised by a step whose next input names a port that is not in `[0, N_PORTS)`
  (spec/10_state.md R101): no such agent exists. Safe: no hardware behaviour is cut off. -/
  | noSuchPort
  /-- Raised by a step whose next input writes a DMEM byte at or above DMEM_SIZE
  (spec/20_memory.md R200). Safe: no such byte exists. -/
  | noSuchAddress
deriving DecidableEq, Repr

/-- Why an instruction has no meaning. -/
inductive Refusal where
  /-- Raised by `exec` for an instruction that has no meaning yet. Safe. No arm raises it: every command
  of the table is modelled. -/
  | notModelled (mnemonic : String)
deriving DecidableEq, Repr

/-- DMEM_SIZE (spec/00_scope.md R9). -/
def Build.dmemSize (b : Build) : Nat := b.dmemSizeFin.val

/-- N_PDU, between 1 and 255 (spec/00_scope.md R9). -/
def Build.nPdu (b : Build) : Nat := b.nPduPred.val + 1

/-- N_PORTS, at least 2 (spec/00_scope.md R9). -/
def Build.nPorts (b : Build) : Nat := b.nPortsExtra + 2

/-- The code of `last_ndi = NONE` (spec/10_state.md R113). -/
def ndiNone : Nat := 255

/-- NdiAfterReset (spec/42_pusch_builder.md R602). -/
def Build.lastNdiAfterReset (b : Build) : Nat :=
  match b.ndiAfterReset with
  | .zero => 0
  | .none => ndiNone

/-- A port after reset (spec/10_state.md R101). -/
def Port.afterReset : Port := ⟨0, 0, 0, 0, 0, 0, 0, 0, false⟩

/-- CFG after reset: every field 0 (spec/10_state.md R107). -/
def CfgRegs.afterReset : CfgRegs where
  mu := 0
  duplex := 0
  nRbCarrier := 0
  fftSize := 0
  firstCarrierOffset := 0
  bwpStart := 0
  bwpSize := 0
  nAnt := 0
  maxRank := 0
  durationRxToTx := 0
  tpEnabled := 0
  msg3TpEnabled := 0
  dmrsType := 0
  dmrsMaxLength := 0
  dmrsAddPos := 0
  msg3DmrsAddPos := 0
  dmrsTypeAPos := 0
  dmrsScramblingId0 := 0
  dmrsScramblingId1 := 0
  ptrsEnabled := 0
  ptrsMcs1 := 0
  ptrsMcs2 := 0
  ptrsMcs3 := 0
  ptrsNrb0 := 0
  ptrsNrb1 := 0
  ptrsReOffset := 0
  mcsTable := 0
  mcsTableTp := 0
  msg3Delta := 0
  nTdra := 0
  ulSlotMask := 0
  tdra := List.replicate 16 ⟨0, 0, 0⟩

/-- A HARQ process at its reset value (spec/10_state.md R113, spec/42_pusch_builder.md R602). -/
def HarqEntry.afterReset (b : Build) : HarqEntry := ⟨b.lastNdiAfterReset, 0, 0, 0, 0⟩

/-- A logical channel at its reset value: every field 0 (spec/10_state.md R114). -/
def LcEntry.afterReset : LcEntry := ⟨false, 0, 0, false, 0, 0, 0, 0⟩

/-- The state that reset leaves (spec/10_state.md R119): everything at its reset value but DMEM and the
model's own fields, which are given. -/
def State.afterReset (b : Build) (mem : List Host.Cell) (inputs : List Input) (rlc : List RlcAnswer)
    (draws : Nat) : State where
  ports := List.replicate b.nPorts Port.afterReset
  cfg := CfgRegs.afterReset
  cfgValid := false
  initDone := false
  halted := false
  faultCode := 0
  faultPort := 0
  faultCmd := 0
  bsrRegularPending := false
  prevLcgData := 0
  prevBestPrio := 255
  store := []
  harq := List.replicate 16 (HarqEntry.afterReset b)
  lc := List.replicate 33 LcEntry.afterReset
  errLog := []
  mem := mem
  build := b
  cur := 0
  inputs := inputs
  rlc := rlc
  draws := draws

/-- The machine right after reset (spec/10_state.md R119): DMEM with nothing listed (log 3), no input and
no oracle answer listed, and an implementation whose OPEN parameters have no chosen value (log 2). -/
def State.reset : State := State.afterReset Config.build [] [] [] 0

end Sys2Proof.Machine
end

