-- ==== Sys2Proof/Machine/Flags.lean ====
section
/-! DEFINITION. The codes and packed flags of the PTB: STATUS codes, FAULT_CODE codes, the bits of
`pdu_bit_map`, and the result word of LCP_RUN (spec/60_exceptions.md R1001, R1002, spec/10_state.md R106,
spec/41_lcp_bsr.md R520). -/

namespace Sys2Proof.Machine

/-- The 8-bit code of a fault or a fatal (spec/60_exceptions.md R1002). -/
def FaultCode.code : FaultCode → BitVec 8
  | .illegalCommand => 0x01
  | .reservedField => 0x02
  | .dmemRange => 0x03
  | .misaligned => 0x04
  | .lockNotHeld => 0x05
  | .selfDeadlock => 0x06
  | .badHandle => 0x07
  | .storeUnderflow => 0x08
  | .notInitialised => 0x09
  | .badConfig => 0x0A
  | .badPdu => 0x0B
  | .dataLength => 0x0C
  | .dftSize => 0x0D
  | .intRange => 0x0E
  | .badArg => 0x0F
  | .fatalInvalidEnum => 0x80
  | .fatalNull => 0x81
  | .fatalK2 => 0x82

/-- STATUS OK (spec/60_exceptions.md R1001). -/
def statusOk : Int := 0
/-- STATUS OK_STALE_RECOVERED. -/
def okStaleRecovered : Int := 1
/-- STATUS OK_LCP_ABORTED. -/
def okLcpAborted : Int := 2
/-- STATUS ERR_NOT_UL_SLOT. -/
def errNotUlSlot : Int := -1
/-- STATUS ERR_CAPACITY. -/
def errCapacity : Int := -2
/-- STATUS ERR_UNSUPPORTED_FORMAT. -/
def errUnsupportedFormat : Int := -3
/-- STATUS ERR_MOD_ORDER_ZERO. -/
def errModOrderZero : Int := -4
/-- STATUS ERR_TBS_ZERO. -/
def errTbsZero : Int := -5
/-- STATUS ERR_BAD_FIELD. -/
def errBadField : Int := -6

/-- The log's event code DL_CONFIG_CLEAR (spec/60_exceptions.md R1003). -/
def dlConfigClear : Int := 3

/-- The null result of a store command (spec/30_encoding.md R312). -/
def nullHandle : Word := 0xFFFFFFFF

/-- The number of set bits of a bit vector (spec/00_scope.md R15). -/
def popcount {w : Nat} (v : BitVec w) : Nat := (List.range w).countP v.getLsbD

/-- The set bits of a bit vector, in ascending order. -/
def setBits {w : Nat} (v : BitVec w) : List Nat := (List.range w).filter v.getLsbD

/-- The bit vector whose set bits are the members of `l` below its width. -/
def maskOf (w : Nat) (l : List Nat) : BitVec w :=
  BitVec.ofNat w (((List.range w).map fun i => if i ∈ l then 2 ^ i else 0).sum)

/-- A truth value as the number 1 or 0. -/
def flagNum (b : Bool) : Nat := if b then 1 else 0

/-- `pdu_bit_map` bit 0: PUSCH data present (spec/10_state.md R106). -/
def Pdu.hasData (p : Pdu) : Bool := p.pduBitMap.getLsbD 0
/-- `pdu_bit_map` bit 2: PTRS present. -/
def Pdu.hasPtrs (p : Pdu) : Bool := p.pduBitMap.getLsbD 2
/-- `pdu_bit_map` bit 3: DFT-s-OFDM used. -/
def Pdu.hasDftSOfdm (p : Pdu) : Bool := p.pduBitMap.getLsbD 3

/-- The `pdu_bit_map` PUSCH_BUILD writes: bit 0 is 1, bits 1, 2 and 3 are UCI, PTRS and transform
precoding, the others 0 (spec/42_pusch_builder.md R663). -/
def pduBitMapOf (uci ptrs tp : Bool) : BitVec 16 :=
  BitVec.ofNat 16 (1 + 2 * flagNum uci + 4 * flagNum ptrs + 8 * flagNum tp)

/-- RES1 of LCP_RUN: the BSR format in bits 31:28, the trigger in bit 27, the BSR bytes in bits 15:0
(spec/41_lcp_bsr.md R520). -/
def lcpRes1 (fmt : Nat) (trig : Bool) (nb : Nat) : Word :=
  BitVec.ofNat 32 (fmt % 16 * 2 ^ 28 + flagNum trig * 2 ^ 27 + nb % 2 ^ 16)

end Sys2Proof.Machine
end

