-- ==== Sys2Proof/Machine/Ops.lean ====
section
/-! DEFINITION. The named operations over DMEM, the port registers, the store and the log, and how a
command's step ends: normally, in a fault or a fatal (the PTB's one exception entry), or held on a lock
(spec/20_memory.md, spec/10_state.md, spec/60_exceptions.md). -/

namespace Sys2Proof.Machine

/-! ### DMEM (spec/20_memory.md) -/

/-- What a DMEM byte that is not listed reads as (log 3). -/
def unlistedByte : Byte := 0

/-- DMEM[a] (spec/20_memory.md R200). -/
def readByte : List Host.Cell → Nat → Byte
  | [], _ => unlistedByte
  | (k, v) :: rest, a => if k = a then v else readByte rest a

/-- Insert a cell before the first listed address above its own. -/
def insertCell (a : Nat) (b : Byte) : List Host.Cell → List Host.Cell
  | [] => [(a, b)]
  | (k, v) :: rest => if a < k then (a, b) :: (k, v) :: rest else (k, v) :: insertCell a b rest

/-- DMEM[a] <- b, kept in canonical form: a byte equal to what an unlisted one reads as is not listed. -/
def writeByte (m : List Host.Cell) (a : Nat) (b : Byte) : List Host.Cell :=
  let others := m.filter fun c => c.1 ≠ a
  if b = unlistedByte then others else insertCell a b others

/-- The canonical form of DMEM: addresses strictly rising, no listed byte equal to an unlisted one. -/
def Memory.wf : List Host.Cell → Bool
  | [] => true
  | [(_, v)] => v ≠ unlistedByte
  | (k, v) :: (k', v') :: rest => v ≠ unlistedByte && k < k' && Memory.wf ((k', v') :: rest)

/-- The `n` bytes of DMEM from `a` on. -/
def readBytes (m : List Host.Cell) (a n : Nat) : List Byte :=
  (List.range n).map fun i => readByte m (a + i)

/-- Write a byte string at `a`. -/
def writeBytes (m : List Host.Cell) (a : Nat) : List Byte → List Host.Cell
  | [] => m
  | b :: rest => writeBytes (writeByte m a b) (a + 1) rest

/-- A byte string as a little-endian number (spec/20_memory.md R203). -/
def leNat : List Byte → Nat
  | [] => 0
  | b :: rest => b.toNat + 256 * leNat rest

/-- The low `8 * n` bits of a number as `n` little-endian bytes (spec/20_memory.md R203). -/
def leBytes : Nat → Nat → List Byte
  | 0, _ => []
  | n + 1, v => BitVec.ofNat 8 v :: leBytes n (v / 256)

/-- MemRead (spec/00_scope.md R14). -/
def memRead (m : List Host.Cell) (a n : Nat) : Nat := leNat (readBytes m a n)

/-- MemWrite (spec/00_scope.md R14). -/
def memWrite (m : List Host.Cell) (a n v : Nat) : List Host.Cell := writeBytes m a (leBytes n v)

/-- The 4 bytes of a c16 sample: `re` then `im` (spec/20_memory.md R205). -/
def c16Bytes (x : C16) : List Byte := leBytes 2 x.re.toNat ++ leBytes 2 x.im.toNat

/-- ReadC16 (spec/20_memory.md R205). -/
def readC16 (m : List Host.Cell) (a : Nat) : C16 :=
  ⟨BitVec.ofNat 16 (memRead m a 2), BitVec.ofNat 16 (memRead m (a + 2) 2)⟩

/-- WriteC16 (spec/20_memory.md R205). -/
def writeC16 (m : List Host.Cell) (a : Nat) (x : C16) : List Host.Cell := writeBytes m a (c16Bytes x)

/-- The `n` samples of the c16 array at `a`. -/
def readC16s (m : List Host.Cell) (a n : Nat) : List C16 :=
  (List.range n).map fun i => readC16 m (a + 4 * i)

/-- WriteC16 for each address and sample of a list, in its order. -/
def writeC16s (m : List Host.Cell) (l : List (Nat × C16)) : List Host.Cell :=
  l.foldl (fun m w => writeC16 m w.1 w.2) m

/-- The byte address of buffer index `idx` of symbol `l` of plane `g` of a grid (spec/20_memory.md R206). -/
def gridAddr (base fft g l idx : Nat) : Nat := base + ((g * 14 + l) * fft + idx) * 4

/-! ### Registers, the log and the store -/

/-- The registers of the issuing port (spec/00_scope.md R14). -/
def State.port (s : State) : Port := s.ports.getD s.cur Port.afterReset

/-- Change the registers of the issuing port. -/
def State.modPort (f : Port → Port) (s : State) : State := { s with ports := s.ports.modify s.cur f }

/-- port.RES0 <- v. -/
def State.setRes0 (v : Word) (s : State) : State := s.modPort fun p => { p with res0 := v }

/-- port.RES1 <- v. -/
def State.setRes1 (v : Word) (s : State) : State := s.modPort fun p => { p with res1 := v }

/-- ret(status): the command ends normally, STATUS gets the code and BUSY returns to 0
(spec/00_scope.md R14, spec/60_exceptions.md R1000). -/
def State.ret (status : Int) (s : State) : State :=
  s.modPort fun p => { p with status := BitVec.ofInt 32 status, busy := false }

/-- log(code, frame, slot) (spec/60_exceptions.md R1040). -/
def State.log (code : Int) (frame slot : Nat) (s : State) : State :=
  { s with errLog := s.errLog ++ [⟨code, frame, slot⟩] }

/-- The slot record `store[k]` (spec/10_state.md R110). -/
def State.slotRec (s : State) (k : Nat) : SlotRec := s.store.getD k default

/-- Change the slot record `store[k]`. -/
def State.modSlot (k : Nat) (f : SlotRec → SlotRec) (s : State) : State :=
  { s with store := s.store.modify k f }

/-- The entry `store[k].entry[e]` of a slot record (spec/10_state.md R111). -/
def SlotRec.entry (r : SlotRec) (e : Nat) : Entry := r.entries.getD e default

/-- Change one entry of a slot record. -/
def SlotRec.modEntry (e : Nat) (f : Entry → Entry) (r : SlotRec) : SlotRec :=
  { r with entries := r.entries.modify e f }

/-- The 64 bytes of a payload (spec/10_state.md R111). -/
def Entry.bytes (e : Entry) : List Byte := (List.range 64).map fun i => e.payload.getD i 0

/-- HARQ[pid] (spec/10_state.md R113). -/
def State.harqEntry (s : State) (pid : Nat) : HarqEntry := s.harq.getD pid default

/-- LC[j] (spec/10_state.md R114). -/
def State.lcEntry (s : State) (j : Nat) : LcEntry := s.lc.getD j default

/-! ### How a step ends -/

/-- Raise a fault unless a check holds (spec/00_scope.md R14). -/
def require (p : Prop) [Decidable p] (code : FaultCode) : Except Stop Unit :=
  if p then .ok () else .error (.fault code)

/-- TAKING THE EXCEPTION: raise Fault(code) or Fatal(code). The command's step is discarded whole; HALTED,
FAULT_CODE, FAULT_PORT (log 11) and FAULT_CMD are written and the issuing port's BUSY becomes 0
(spec/60_exceptions.md R1020, R1021). `s` is the state before the command's step. -/
def State.raiseFault (code : FaultCode) (s : State) : State :=
  { s with
    halted := true
    faultCode := code.code
    faultPort := BitVec.ofNat 8 s.cur
    faultCmd := s.port.cmd
    ports := s.ports.modify s.cur fun p => { p with busy := false } }

/-- THE RETURN FROM IT: there is no return instruction, reset is the only way out
(spec/60_exceptions.md R1023). Reset returns everything to its reset value, leaves DMEM, and does not
touch the model's own fields for the implementation, the pending inputs and the oracle
(spec/70_reset_and_hazards.md R1100, log 22). -/
def State.resetInput (s : State) : State := State.afterReset s.build s.mem s.inputs s.rlc s.draws

/-- A set of port numbers with one more member, kept strictly ascending (log 10). -/
def addWaiter (p : Nat) (l : List Nat) : List Nat :=
  l.filter (fun q => q < p) ++ p :: l.filter (fun q => p < q)

/-- The issuing port waits on no lock any more (log 10). -/
def State.unwait (s : State) : State :=
  { s with store := s.store.map fun r => { r with waiters := r.waiters.filter fun q => q ≠ s.cur } }

/-- hold: the command stays issued with BUSY = 1 and no effect; the issuing port is among the waiters of
the locks it waits for (spec/60_exceptions.md R1030, spec/10_state.md R110, log 10). -/
def State.hold (slots : List Nat) (s : State) : State :=
  slots.foldl (fun t k => t.modSlot k fun r => { r with waiters := addWaiter s.cur r.waiters }) s.unwait

/-- Port `p` has a command that is held on a lock, and the condition it waits for does not hold: some lock
it waits for is not FREE (spec/60_exceptions.md R1030, spec/40_config_store.md R402). -/
def State.stillWaits (p : Nat) (s : State) : Bool :=
  s.store.any fun r => decide (p ∈ r.waiters) && decide (r.lock ≠ none)

/-- The end of a command's step from the state `s` before it: the normal end's state, the halt, or the
hold (spec/60_exceptions.md R1000). -/
def finish (s : State) : Except Stop State → State
  | .ok t => t
  | .error (.fault code) => s.raiseFault code
  | .error (.hold slots) => s.hold slots

/-! ### Locks (spec/40_config_store.md R402, R403) -/

/-- Acquire(k): take a FREE lock, fault on the port's own, wait for another's (R402). -/
def State.acquire (k : Nat) (s : State) : Except Stop State :=
  match (s.slotRec k).lock with
  | none => .ok (s.modSlot k fun r => { r with lock := some s.cur })
  | some p => if p = s.cur then .error (.fault .selfDeadlock) else .error (.hold [k])

/-- Release(k) (R403); the commands that call it have checked that the port holds the lock. -/
def State.release (k : Nat) (s : State) : State := s.modSlot k fun r => { r with lock := none }

end Sys2Proof.Machine
end

