-- ==== Sys2Proof/Machine/Operands.lean ====
section
/-! DEFINITION. Operand forms: regions of DMEM and their checks, slots and handles, and the descriptors and
records a command reads or writes (spec/60_exceptions.md R1012, spec/20_memory.md R216,
spec/30_encoding.md R302 to R343). -/

namespace Sys2Proof.Machine

/-! ### Regions (spec/60_exceptions.md R1012, spec/20_memory.md R216) -/

/-- The `n` bytes at `a` exist, bits 31:26 of the address are 0 and it is aligned: what CheckRegion lets
pass (spec/60_exceptions.md R1012). -/
abbrev RegionOk (s : State) (a n align : Nat) : Prop :=
  (a < 2 ^ 26 ∧ a + n ≤ s.build.dmemSize) ∧ a % align = 0

/-- CheckRegion (spec/60_exceptions.md R1012): DMEM_RANGE first, then MISALIGNED. -/
def checkRegion (s : State) (a n align : Nat) : Except Stop Unit := do
  require (a < 2 ^ 26 ∧ a + n ≤ s.build.dmemSize) .dmemRange
  require (a % align = 0) .misaligned

/-- CheckRegion for each address of a list, in its order, all of one length and alignment. -/
def checkRegions (s : State) (n align : Nat) : List Nat → Except Stop Unit
  | [] => .ok ()
  | a :: rest => do
    checkRegion s a n align
    checkRegions s n align rest

/-- Two regions, each an address and a length, share a byte. -/
def overlaps (x y : Nat × Nat) : Bool :=
  decide (0 < x.2) && decide (0 < y.2) && decide (x.1 < y.1 + y.2) && decide (y.1 < x.1 + x.2)

/-- No region of a list overlaps `x`. -/
def clearOf (x : Nat × Nat) (others : List (Nat × Nat)) : Bool := others.all fun y => !overlaps x y

/-- The region of the descriptor of `n` bytes that DADDR names (spec/30_encoding.md R302). -/
def descRegion (daddr n : Nat) : Nat × Nat := (4 * daddr, n)

/-- Read the descriptor of `n` bytes that DADDR names, after CheckRegion (spec/30_encoding.md R304). -/
def readDesc (s : State) (daddr n : Nat) : Except Stop (List Byte) := do
  checkRegion s (4 * daddr) n 4
  .ok (readBytes s.mem (4 * daddr) n)

/-! ### Slots and handles (spec/30_encoding.md R310, R312) -/

/-- Slots per frame `10 * 2^mu` (spec/10_state.md R108). -/
def CfgRegs.spf (c : CfgRegs) : Nat := 10 * 2 ^ c.mu

/-- Slots per frame of the configuration in force. -/
def State.spf (s : State) : Nat := s.cfg.spf

/-- UlSlot (spec/10_state.md R109). -/
def State.ulSlot (s : State) (k : Nat) : Bool :=
  (s.cfg.duplex == 0 && decide (k < s.spf)) || (s.cfg.duplex == 1 && s.cfg.ulSlotMask.getLsbD k)

/-- The absolute slot number (spec/10_state.md R118). -/
def State.absSlot (s : State) (frame slot : Nat) : Nat := frame * s.spf + slot

/-- The handle of an entry as a 32-bit result (spec/30_encoding.md R312). -/
def handleWord (slot entry : Nat) : Word := BitVec.ofNat 32 (slot % 256 * 256 + entry % 256)

/-- CheckHandle (spec/40_config_store.md R404): the slot and the entry of a handle whose slot lock the
issuing port holds. -/
def checkHandle (s : State) (h : Nat) : Except Stop (Nat × Nat) := do
  require (h ≠ 0xFFFF) .fatalNull
  require (bits h 15 8 < s.spf ∧ bits h 7 0 ≤ s.build.nPdu) .badHandle
  require ((s.slotRec (bits h 15 8)).lock = some s.cur) .lockNotHeld
  .ok (bits h 15 8, bits h 7 0)

/-! ### Fields of a descriptor's bytes -/

/-- The u8 field at an offset. -/
def u8 (bs : List Byte) (off : Nat) : Nat := (bs.getD off 0).toNat

/-- The u16 field at an offset (spec/20_memory.md R203). -/
def u16 (bs : List Byte) (off : Nat) : Nat := u8 bs off + 256 * u8 bs (off + 1)

/-- The u32 field at an offset (spec/20_memory.md R203). -/
def u32 (bs : List Byte) (off : Nat) : Nat := u16 bs off + 65536 * u16 bs (off + 2)

/-- TDRA row `i` of a CFG descriptor (spec/30_encoding.md R330). -/
def tdraRowAt (bs : List Byte) (i : Nat) : TdraRow :=
  ⟨u8 bs (0x40 + 4 * i), u8 bs (0x41 + 4 * i), u16 bs (0x42 + 4 * i)⟩

/-- Decode of a CFG descriptor (spec/30_encoding.md R330). -/
def cfgOfBytes (bs : List Byte) : CfgRegs where
  mu := u8 bs 0x00
  duplex := u8 bs 0x01
  nRbCarrier := u16 bs 0x02
  fftSize := u16 bs 0x04
  firstCarrierOffset := u16 bs 0x06
  bwpStart := u16 bs 0x08
  bwpSize := u16 bs 0x0A
  nAnt := u8 bs 0x0C
  maxRank := u8 bs 0x0D
  durationRxToTx := u8 bs 0x0E
  tpEnabled := u8 bs 0x0F
  msg3TpEnabled := u8 bs 0x10
  dmrsType := u8 bs 0x11
  dmrsMaxLength := u8 bs 0x12
  dmrsAddPos := u8 bs 0x13
  msg3DmrsAddPos := u8 bs 0x14
  dmrsTypeAPos := u8 bs 0x15
  dmrsScramblingId0 := u16 bs 0x16
  dmrsScramblingId1 := u16 bs 0x18
  ptrsEnabled := u8 bs 0x1A
  ptrsMcs1 := u8 bs 0x1B
  ptrsMcs2 := u8 bs 0x1C
  ptrsMcs3 := u8 bs 0x1D
  ptrsNrb0 := u16 bs 0x1E
  ptrsNrb1 := u16 bs 0x20
  ptrsReOffset := u8 bs 0x22
  mcsTable := u8 bs 0x23
  mcsTableTp := u8 bs 0x24
  msg3Delta := u8 bs 0x25
  nTdra := u8 bs 0x26
  ulSlotMask := BitVec.ofNat 160 (leNat ((bs.drop 0x28).take 20))
  tdra := (List.range 16).map (tdraRowAt bs)

/-- The reserved bytes of a CFG descriptor (spec/30_encoding.md R330). -/
def cfgReserved (bs : List Byte) : Nat := u8 bs 0x27 + u32 bs 0x3C

/-- Decode of a grant descriptor (spec/30_encoding.md R333). -/
def grantOfBytes (bs : List Byte) : Grant where
  source := u8 bs 0x00
  harqPid := u8 bs 0x01
  ndi := u8 bs 0x02
  rv := u8 bs 0x03
  rnti := u16 bs 0x04
  rxFrame := u16 bs 0x06
  rxSlot := u8 bs 0x08
  tdraIndex := u8 bs 0x09
  riv := u16 bs 0x0A
  mcs := u8 bs 0x0C
  antennaPorts := u8 bs 0x0D
  tpmi := u8 bs 0x0E
  nLayers := u8 bs 0x0F
  tpc := u8 bs 0x10
  allocType := u8 bs 0x11
  scid := u8 bs 0x12
  payloadAddr := u32 bs 0x14
  harqAckBits := u16 bs 0x18
  csiP1Bits := u16 bs 0x1A
  csiP2Bits := u16 bs 0x1C

/-- The reserved bytes of a grant descriptor (spec/30_encoding.md R333). -/
def grantReserved (bs : List Byte) : Nat := u8 bs 0x13 + u16 bs 0x1E

/-- Decode of a PUSCH PDU descriptor (spec/30_encoding.md R331). -/
def pduOfBytes (bs : List Byte) : Pdu where
  pduBitMap := BitVec.ofNat 16 (u16 bs 0x00)
  rnti := u16 bs 0x02
  bwpStart := u16 bs 0x04
  bwpSize := u16 bs 0x06
  rbStart := u16 bs 0x08
  rbSize := u16 bs 0x0A
  startSymbol := u8 bs 0x0C
  nrOfSymbols := u8 bs 0x0D
  mcsIndex := u8 bs 0x0E
  mcsTable := u8 bs 0x0F
  modOrder := u8 bs 0x10
  nLayers := u8 bs 0x11
  codeRate := u16 bs 0x12
  tbsBytes := u32 bs 0x14
  harqPid := u8 bs 0x18
  ndi := u8 bs 0x19
  rv := u8 bs 0x1A
  transformPrecoding := u8 bs 0x1B
  ulDmrsSymbPos := BitVec.ofNat 16 (u16 bs 0x1C)
  dmrsConfigType := u8 bs 0x1E
  numDmrsCdmGrpsNoData := u8 bs 0x1F
  dmrsPorts := BitVec.ofNat 16 (u16 bs 0x20)
  ulDmrsScramblingId := u16 bs 0x22
  scid := u8 bs 0x24
  dmrsDouble := u8 bs 0x25
  ptrsK := u8 bs 0x26
  ptrsL := u8 bs 0x27
  ptrsSymbPos := BitVec.ofNat 16 (u16 bs 0x28)
  ptrsReOffset := u8 bs 0x2A
  ptrsLayer := u8 bs 0x2B
  tpmi := u8 bs 0x2C
  nAnt := u8 bs 0x2D
  tpcDelta := u8 bs 0x2E
  mappingType := u8 bs 0x2F
  txPower := BitVec.ofNat 16 (u16 bs 0x30)
  harqAckBits := u16 bs 0x32
  csiP1Bits := u16 bs 0x34
  csiP2Bits := u16 bs 0x36
  payloadAddr := u32 bs 0x38
  frame := u16 bs 0x3C
  slot := u8 bs 0x3E
  reserved := u8 bs 0x3F

/-- The 64 bytes of a PUSCH PDU descriptor (spec/30_encoding.md R331). -/
def pduBytes (p : Pdu) : List Byte :=
  leBytes 2 p.pduBitMap.toNat ++ leBytes 2 p.rnti ++ leBytes 2 p.bwpStart ++ leBytes 2 p.bwpSize
  ++ leBytes 2 p.rbStart ++ leBytes 2 p.rbSize ++ leBytes 1 p.startSymbol ++ leBytes 1 p.nrOfSymbols
  ++ leBytes 1 p.mcsIndex ++ leBytes 1 p.mcsTable
  ++ leBytes 1 p.modOrder ++ leBytes 1 p.nLayers ++ leBytes 2 p.codeRate ++ leBytes 4 p.tbsBytes
  ++ leBytes 1 p.harqPid ++ leBytes 1 p.ndi ++ leBytes 1 p.rv ++ leBytes 1 p.transformPrecoding
  ++ leBytes 2 p.ulDmrsSymbPos.toNat ++ leBytes 1 p.dmrsConfigType ++ leBytes 1 p.numDmrsCdmGrpsNoData
  ++ leBytes 2 p.dmrsPorts.toNat ++ leBytes 2 p.ulDmrsScramblingId ++ leBytes 1 p.scid
  ++ leBytes 1 p.dmrsDouble ++ leBytes 1 p.ptrsK ++ leBytes 1 p.ptrsL
  ++ leBytes 2 p.ptrsSymbPos.toNat ++ leBytes 1 p.ptrsReOffset ++ leBytes 1 p.ptrsLayer
  ++ leBytes 1 p.tpmi ++ leBytes 1 p.nAnt ++ leBytes 1 p.tpcDelta ++ leBytes 1 p.mappingType
  ++ leBytes 2 p.txPower.toNat ++ leBytes 2 p.harqAckBits ++ leBytes 2 p.csiP1Bits
  ++ leBytes 2 p.csiP2Bits ++ leBytes 4 p.payloadAddr ++ leBytes 2 p.frame ++ leBytes 1 p.slot
  ++ leBytes 1 p.reserved

/-- Decode of an LC config descriptor (spec/30_encoding.md R334). -/
def lcDescOfBytes (bs : List Byte) : LcDesc where
  lcid := u8 bs 0x00
  priority := u8 bs 0x01
  lcg := u8 bs 0x02
  flags := u8 bs 0x03
  pbrMs := u32 bs 0x04
  bucketSize := u32 bs 0x08
  frame := u16 bs 0x0C
  slot := u8 bs 0x0E
  reserved := u8 bs 0x0F

/-- Decode of an LCP descriptor (spec/30_encoding.md R335). -/
def lcpDescOfBytes (bs : List Byte) : LcpDesc where
  outAddr := u32 bs 0x00
  buflen := u32 bs 0x04
  frame := u16 bs 0x08
  slot := u8 bs 0x0A
  reserved := u8 bs 0x0B

/-- Decode of a BSR descriptor (spec/30_encoding.md R336). -/
def bsrDescOfBytes (bs : List Byte) : BsrDesc where
  outAddr := u32 bs 0x00
  space := u32 bs 0x04
  lcgBytes := (List.range 8).map fun g => u32 bs (0x08 + 4 * g)
  lcgBestPrio := (List.range 8).map fun g => u8 bs (0x28 + g)

/-- Decode of a map descriptor (spec/30_encoding.md R337). -/
def mapDescOfBytes (bs : List Byte) : MapDesc where
  pduAddr := u32 bs 0x00
  dataAddr := (List.range 4).map fun v => u32 bs (0x04 + 4 * v)
  dataLen := u32 bs 0x14
  dmrsAddr := u32 bs 0x18
  ptrsAddr := u32 bs 0x1C
  gridAddr := u32 bs 0x20

/-- Decode of a precode descriptor (spec/30_encoding.md R338). -/
def precodeDescOfBytes (bs : List Byte) : PrecodeDesc where
  pduAddr := u32 bs 0x00
  layerGridAddr := u32 bs 0x04
  antGridAddr := u32 bs 0x08

/-- Decode of a layer-map descriptor (spec/30_encoding.md R339). -/
def layerMapDescOfBytes (bs : List Byte) : LayerMapDesc where
  inAddr := u32 bs 0x00
  nIn := u32 bs 0x04
  nLayers := u8 bs 0x08
  reserved := u8 bs 0x09 + 256 * u16 bs 0x0A
  outAddr := (List.range 4).map fun v => u32 bs (0x0C + 4 * v)

/-- Decode of a transform-precoding descriptor (spec/30_encoding.md R340). -/
def tpDescOfBytes (bs : List Byte) : TpDesc where
  pduAddr := u32 bs 0x00
  inAddr := u32 bs 0x04
  outAddr := u32 bs 0x08
  n := u32 bs 0x0C

/-- Decode of an LLR descriptor (spec/30_encoding.md R341). -/
def llrDescOfBytes (bs : List Byte) : LlrDesc where
  rxAddr := u32 bs 0x00
  magAddr := (List.range 3).map fun k => u32 bs (0x04 + 4 * k)
  outAddr := u32 bs 0x10
  nbRe := u32 bs 0x14

/-- The HARQ record (spec/30_encoding.md R342). -/
def harqRecord (h : HarqEntry) : List Byte :=
  leBytes 4 h.tbsBytes ++ leBytes 2 h.codeRate ++ leBytes 1 h.modOrder ++ leBytes 1 h.lastNdi
  ++ leBytes 1 h.round ++ leBytes 3 0

/-- The LC record, `Bj` as i32 two's complement (spec/30_encoding.md R343). -/
def lcRecord (l : LcEntry) : List Byte :=
  leBytes 1 (flagNum l.configured) ++ leBytes 1 l.priority ++ leBytes 1 l.lcg
  ++ leBytes 1 (flagNum l.pbrInf) ++ leBytes 4 l.pbrMs ++ leBytes 4 l.bucketSize
  ++ leBytes 4 (BitVec.ofInt 32 l.bj).toNat ++ leBytes 4 l.lastUpdate ++ leBytes 4 0

end Sys2Proof.Machine
end

