-- ==== Sys2Proof/Machine/Tables.lean ====
section
/-! DEFINITION. The 3GPP tables and allocation codes the spec transcribes: RIV and SLIV, the MCS tables, the TBS
table, the fixed antenna-port rows, the DMRS weights and the two-port precoding matrices
(spec/42_pusch_builder.md R620 to R639, spec/43_re_mapper.md R710, R711, R721,
spec/44_precoding_transform.md R830). What it leaves OPEN is read from Config. -/

namespace Sys2Proof.Machine

/-! ### Frequency and time allocation (spec/42_pusch_builder.md R638, R639) -/

/-- The RIV of a start and a length in a BWP of `n` RBs (R638). -/
def rivEncode (n start len : Nat) : Nat :=
  if len - 1 ≤ n / 2 then n * (len - 1) + start else n * (n - len + 1) + (n - 1 - start)

/-- RivDecode (R638): of the two allocations whose encoding can have this quotient and remainder by `n`,
the one whose encoding it is. -/
def rivDecode (riv n : Nat) : Option (Nat × Nat) :=
  [(riv % n, riv / n + 1), (n - 1 - riv % n, n + 1 - riv / n)].find? fun a =>
    decide (1 ≤ a.2 ∧ a.1 + a.2 ≤ n ∧ rivEncode n a.1 a.2 = riv)

/-- The SLIV of a start symbol and a length (R639). -/
def slivEncode (start len : Nat) : Nat :=
  if len - 1 ≤ 7 then 14 * (len - 1) + start else 14 * (14 - len + 1) + (14 - 1 - start)

/-- SlivDecode (R639), by the same two candidates as RivDecode. -/
def slivDecode (sliv : Nat) : Option (Nat × Nat) :=
  [(sliv % 14, sliv / 14 + 1), (13 - sliv % 14, 15 - sliv / 14)].find? fun a =>
    decide (1 ≤ a.2 ∧ a.1 + a.2 ≤ 14 ∧ slivEncode a.1 a.2 = sliv)

/-- A TDRA row is legal (spec/10_state.md R108, R639): its fields are in range and its start and length
fit its mapping type. -/
def TdraRow.legal (r : TdraRow) : Bool :=
  decide (r.k2 ≤ 32) &&
  match slivDecode r.sliv with
  | none => false
  | some (start, len) =>
    (r.mappingType == 0 && start == 0 && decide (4 ≤ len)) || r.mappingType == 1

/-- Every prime factor of a number is 2, 3 or 5: repeated division by one of them, at most `fuel` times,
ends at 1. -/
def stripTo1 : Nat → Nat → Bool
  | 0, n => n == 1
  | fuel + 1, n =>
    if n = 1 then true
    else if n % 2 = 0 then stripTo1 fuel (n / 2)
    else if n % 3 = 0 then stripTo1 fuel (n / 3)
    else if n % 5 = 0 then stripTo1 fuel (n / 5)
    else false

/-- `n` is `2^a * 3^b * 5^c` (spec/44_precoding_transform.md R821); a positive number below `2^32` needs
at most 31 divisions. -/
def smooth235 (n : Nat) : Bool := n ≠ 0 && stripTo1 32 n

/-! ### Modulation and coding (spec/42_pusch_builder.md R620 to R622) -/

/-- `R * 10240` of the rows of TS 38.214 Table 5.1.3.1-1 that have one (R621). -/
def mcsRates1 : List (Fin 10241) :=
  [1200, 1570, 1930, 2510, 3080, 3790, 4490, 5260, 6020, 6790,
   3400, 3780, 4340, 4900, 5530, 6160, 6580,
   4380, 4660, 5170, 5670, 6160, 6660, 7190, 7720, 8220, 8730, 9100, 9480]

/-- `R * 10240` of the rows of TS 38.214 Table 5.1.3.1-2 that have one (R621). -/
def mcsRates2 : List (Fin 10241) :=
  [1200, 1930, 3080, 4490, 6020,
   3780, 4340, 4900, 5530, 6160, 6580,
   4660, 5170, 5670, 6160, 6660, 7190, 7720, 8220, 8730,
   6825, 7110, 7540, 7970, 8410, 8850, 9165, 9480]

/-- The modulation orders of Table 5.1.3.1-1 (R621). -/
def mcsQm1 (mcs : Nat) : Fin 256 :=
  if mcs ≤ 9 then 2 else if mcs ≤ 16 then 4 else if mcs ≤ 28 then 6
  else if mcs = 29 then 2 else if mcs = 30 then 4 else 6

/-- The modulation orders of Table 5.1.3.1-2 (R621). -/
def mcsQm2 (mcs : Nat) : Fin 256 :=
  if mcs ≤ 4 then 2 else if mcs ≤ 10 then 4 else if mcs ≤ 19 then 6 else if mcs ≤ 27 then 8
  else if mcs = 28 then 2 else if mcs = 29 then 4 else if mcs = 30 then 6 else 8

/-- McsLookup (R622) in the table that transform precoding and the table code select (R620). -/
def mcsLookup (tp : Bool) (code mcs : Nat) : McsRow :=
  match tp, code with
  | false, 0 => ⟨mcsQm1 mcs, mcsRates1.getD mcs 0⟩
  | false, 1 => ⟨mcsQm2 mcs, mcsRates2.getD mcs 0⟩
  | false, _ => Config.mcsTableLowSe mcs
  | true, 0 => Config.mcsTableTp64 mcs
  | true, _ => Config.mcsTableTpLowSe mcs

/-! ### Transport block size (spec/42_pusch_builder.md R635, R637) -/

/-- TS 38.214 Table 5.1.3.2-1 (R637). -/
def tbsTable : List Nat :=
  [24, 32, 40, 48, 56, 64, 72, 80, 88, 96, 104, 112, 120, 128, 136, 144, 152, 160, 168, 176, 184, 192]
  ++ [208, 224, 240, 256, 272, 288, 304, 320, 336, 352, 368, 384]
  ++ [408, 432, 456, 480, 504, 528, 552, 576]
  ++ [608, 640, 672, 704, 736, 768, 808, 848, 888, 928, 984, 1032, 1064, 1128, 1160, 1192, 1224, 1256]
  ++ [1288, 1320, 1352, 1416, 1480, 1544, 1608, 1672, 1736, 1800, 1864, 1928, 2024, 2088, 2152, 2216]
  ++ [2280, 2408, 2472, 2536, 2600, 2664, 2728, 2792, 2856, 2976, 3104, 3240, 3368, 3496, 3624, 3752, 3824]

/-- `ceil(a / b)`. -/
def ceilDiv (a b : Nat) : Nat := (a + b - 1) / b

/-- `8 * C * ceil((n + 24) / (8 * C)) - 24` (R635). -/
def tbsSegmented (n c : Nat) : Nat := 8 * c * ceilDiv (n + 24) (8 * c) - 24

/-- The entry of the TBS table for a small `N_info`, given `floor(N_info)` (R635, R637): `floor(log2 x)`
and `floor(x / 2^n)` of a rational are those of its floor. -/
def tbsSmall (nInfo : Nat) : Nat :=
  let n := max 3 (Nat.log2 nInfo - 6)
  let rounded := max 24 (2 ^ n * (nInfo / 2 ^ n))
  (tbsTable.find? fun e => decide (rounded ≤ e)).getD 0

/-- The TBS of a large `N_info = num / 10240` at the code rate `cr / 10240` (R635). RoundHalfUp of
`(N_info - 24) / 2^n` is `floor((2 a + d) / (2 d))` with `a = num - 245760` and `d = 10240 * 2^n`. -/
def tbsLarge (num cr : Nat) : Nat :=
  let excess := num - 24 * 10240
  let n := Nat.log2 (excess / 10240) - 5
  let d := 10240 * 2 ^ n
  let rounded := max 3840 (2 ^ n * ((2 * excess + d) / (2 * d)))
  if 4 * cr ≤ 10240 then tbsSegmented rounded (ceilDiv (rounded + 24) 3816)
  else if 8424 < rounded then tbsSegmented rounded (ceilDiv (rounded + 24) 8424)
  else 8 * ceilDiv (rounded + 24) 8 - 24

/-- TbsCompute (R635), with `R = cr / 10240` exact; `nRe` may be negative (R634). -/
def tbsCompute (nRe : Int) (cr qm layers : Nat) : Nat :=
  let num := nRe.toNat * cr * qm * layers
  if num = 0 then 0
  else if num ≤ 3824 * 10240 then tbsSmall (num / 10240)
  else tbsLarge num cr

/-! ### Antenna ports (spec/42_pusch_builder.md R630) -/

/-- A single-symbol row of the antenna-port table: CDM groups and a port set. -/
def antRow (cdmPred : Fin 3) (ports : BitVec 12) : Option AntPortRow := some ⟨cdmPred, ports, false⟩

/-- ANT_PORT_TABLE (R630): the fixed rows, else the OPEN table; `none` is a reserved value. Transform
precoding with `dmrs_type = 2` or more than one layer is not looked up. -/
def antPortLookup (tp : Bool) (dmrsType maxLength layers value : Nat) : Option AntPortRow :=
  match tp, dmrsType, maxLength, layers with
  | true, 1, 1, 1 => [antRow 1 0x1, antRow 1 0x2, antRow 1 0x4, antRow 1 0x8].getD value none
  | false, 1, 1, 1 =>
    [antRow 0 0x1, antRow 0 0x2, antRow 1 0x1, antRow 1 0x2, antRow 1 0x4, antRow 1 0x8].getD value none
  | false, 1, 1, 2 => [antRow 0 0x3, antRow 1 0x3, antRow 1 0xC, antRow 1 0x5].getD value none
  | false, 1, 1, 3 => [antRow 1 0x7].getD value none
  | false, 1, 1, 4 => [antRow 1 0xF].getD value none
  | _, _, _, _ => Config.antPortTable tp dmrsType maxLength layers value

/-! ### Precoding matrices (spec/44_precoding_transform.md R830) -/

/-- A matrix given by its rows of Gaussian integers. -/
def matrixOf (norm : Nat) (rows : List (List Gauss)) : Option WMatrix :=
  some ⟨norm, fun a v => (rows.getD a []).getD v ⟨0, 0⟩⟩

/-- `W(n_ant, layers, tpmi)` for a TPMI other than 0 (R830); `none` is an invalid TPMI. -/
def wLookup (nAnt layers tpmi : Nat) : Option WMatrix :=
  match nAnt, layers, tpmi with
  | 2, 1, 1 => matrixOf 2 [[⟨0, 0⟩], [⟨1, 0⟩]]
  | 2, 1, 2 => matrixOf 2 [[⟨1, 0⟩], [⟨1, 0⟩]]
  | 2, 1, 3 => matrixOf 2 [[⟨1, 0⟩], [⟨-1, 0⟩]]
  | 2, 1, 4 => matrixOf 2 [[⟨1, 0⟩], [⟨0, 1⟩]]
  | 2, 1, 5 => matrixOf 2 [[⟨1, 0⟩], [⟨0, -1⟩]]
  | 2, 2, 1 => matrixOf 4 [[⟨1, 0⟩, ⟨1, 0⟩], [⟨1, 0⟩, ⟨-1, 0⟩]]
  | 2, 2, 2 => matrixOf 4 [[⟨1, 0⟩, ⟨1, 0⟩], [⟨0, 1⟩, ⟨0, -1⟩]]
  | 4, _, _ => Config.wTable layers tpmi
  | _, _, _ => none

/-- Row `a` of a matrix with `layers` columns. -/
def WMatrix.row (w : WMatrix) (layers a : Nat) : WRow := ⟨w.norm, (List.range layers).map (w.entry a)⟩

end Sys2Proof.Machine
end

