-- ==== Sys2Proof/Machine/Builder.lean ====
section
/-! DEFINITION. The PUSCH configuration builder and the HARQ table: TA_EXPIRY, GRANT_TARGET, PUSCH_BUILD,
HARQ_READ (spec/42_pusch_builder.md). -/

namespace Sys2Proof.Machine

/-! ### TA_EXPIRY (spec/42_pusch_builder.md R601) -/

/-- The slots whose lock some port holds (R601). -/
def State.heldSlots (s : State) : List Nat :=
  (List.range s.spf).filter fun k => decide ((s.slotRec k).lock ≠ none)

/-- The issuing port holds the lock of some slot (R601). -/
def State.holdsSome (s : State) : Bool :=
  (List.range s.spf).any fun k => decide ((s.slotRec k).lock = some s.cur)

/-- TA_EXPIRY (R601): every slot's PDU count and the whole HARQ table are reset. It waits for the locks of
all slots (log 10). -/
def taExpiryBody (s : State) : Except Stop State := do
  require (s.initDone = true) .notInitialised
  require (s.holdsSome = false) .selfDeadlock
  if s.heldSlots ≠ [] then .error (.hold (List.range s.spf))
  else
    let t : State :=
      { s with
        store := s.store.map fun r => { r with numberPdus := 0 }
        harq := List.replicate 16 (HarqEntry.afterReset s.build) }
    pure ((t.log dlConfigClear 0 0).ret statusOk)

/-- TA_EXPIRY, opcode 0x04 (spec/42_pusch_builder.md R601). -/
def execTaExpiry (s : State) : Host.Outcome State Fault Refusal :=
  .next (finish s (taExpiryBody s.unwait))

/-! ### GRANT_TARGET (spec/42_pusch_builder.md R640) -/

/-- The grant is a RAR or MsgA grant (R603, spec/30_encoding.md R313). -/
def Grant.isRar (g : Grant) : Bool := g.source == 2 || g.source == 3

/-- TDRA row `i` of CFG. -/
def CfgRegs.tdraRow (c : CfgRegs) (i : Nat) : TdraRow := c.tdra.getD i default

/-- K2 of a grant (R640). -/
def grantK2 (c : CfgRegs) (g : Grant) : Nat :=
  (c.tdraRow g.tdraIndex).k2 + if g.isRar then c.msg3Delta else 0

/-- A grant ends with a negative status: it is logged and nothing else changes (R640, R660). -/
def State.skipGrant (code : Int) (frame slot : Nat) (s : State) : State :=
  (s.log code frame slot).ret code

/-- The number `n` of the target slot (R640). -/
def targetSlot (s : State) (g : Grant) : Nat := s.absSlot g.rxFrame g.rxSlot + grantK2 s.cfg g

/-- GRANT_TARGET (R640). -/
def grantTargetBody (daddr : Nat) (s : State) : Except Stop State := do
  require (s.initDone = true) .notInitialised
  let bs ← readDesc s daddr 32
  let g := grantOfBytes bs
  require (grantReserved bs = 0) .badArg
  if 3 < g.source then pure (s.skipGrant errUnsupportedFormat g.rxFrame g.rxSlot)
  else if s.cfg.nTdra ≤ g.tdraIndex ∨ 1023 < g.rxFrame ∨ s.spf ≤ g.rxSlot then
    pure (s.skipGrant errBadField g.rxFrame g.rxSlot)
  else do
    require (s.cfg.durationRxToTx < grantK2 s.cfg g) .fatalK2
    pure (((s.setRes0 (BitVec.ofNat 32 (targetSlot s g / s.spf % 1024))).setRes1
      (BitVec.ofNat 32 (targetSlot s g % s.spf))).ret statusOk)

/-- GRANT_TARGET, opcode 0x10 (spec/42_pusch_builder.md R640). -/
def execGrantTarget (daddr : Nat) (s : State) : Host.Outcome State Fault Refusal :=
  .next (finish s (grantTargetBody daddr s))

/-! ### The evaluation of a grant (spec/42_pusch_builder.md R661) -/

/-- A check of a grant: where it fails, the grant ends with its status (R661). -/
def grantCheck (p : Prop) [Decidable p] (code : Int) : Except Int Unit :=
  if p then .ok () else .error code

/-- A value a grant must determine: where there is none, the grant ends with a status (R661). -/
def grantValue {α : Type} (o : Option α) (code : Int) : Except Int α :=
  match o with
  | some x => .ok x
  | none => .error code

/-- Transform precoding of a grant (R661). -/
def Grant.tp (c : CfgRegs) (g : Grant) : Bool :=
  if g.isRar then c.msg3TpEnabled == 1 else c.tpEnabled == 1

/-- The number of layers of a grant (R660). -/
def Grant.layers (g : Grant) : Nat := if g.source = 1 then g.nLayers else 1

/-- The HARQ process of a grant (R603). -/
def Grant.pid (g : Grant) : Nat := if g.isRar then 0 else g.harqPid

/-- The grant carries new data for its HARQ process (R603). -/
def Grant.newData (h : HarqEntry) (g : Grant) : Bool :=
  g.isRar || h.lastNdi == ndiNone || g.ndi != h.lastNdi

/-- The field ranges of a grant (R661, check 2). -/
def Grant.fieldsLegal (c : CfgRegs) (g : Grant) : Bool := decide
  (g.harqPid ≤ 15 ∧ g.ndi ≤ 1 ∧ g.rv ≤ 3 ∧ g.tpc ≤ 3 ∧ g.allocType = 1 ∧ g.scid ≤ 1 ∧
   g.tdraIndex < c.nTdra ∧ g.antennaPorts ≤ 15 ∧ g.mcs ≤ 31 ∧ (g.isRar = true → g.mcs ≤ 15) ∧
   (g.source = 1 → 1 ≤ g.nLayers ∧ g.nLayers ≤ c.maxRank))

/-- The MCS table code of a grant (R620). -/
def Grant.tableCode (c : CfgRegs) (g : Grant) : Nat :=
  if g.source = 1 then if g.tp c then c.mcsTableTp else c.mcsTable else 0

/-- The DMRS of a PUSCH (R629): type, CDM groups without data, port set, double-symbol, symbols. -/
structure Dmrs where
  dmrsType : Nat
  cdm : Nat
  ports : BitVec 16
  double : Bool
  symbols : List Nat
deriving DecidableEq, Repr

/-- The DMRS positions relative to `base` (R632, log 13). -/
def dmrsRelative (mt ld ap l0 : Nat) (double : Bool) : List Nat :=
  let front := if ap = 0 then [l0] else Config.dmrsPosTable mt ld ap l0 double
  if double then front ++ front.map (· + 1) else front

/-- The DMRS symbols of a PUSCH of mapping type `mt` in `[start, start + len)` (R632). -/
def dmrsSymbols (c : CfgRegs) (g : Grant) (mt start len : Nat) (double : Bool) : List Nat :=
  let l0 := if mt = 0 then c.dmrsTypeAPos else 0
  let ld := if mt = 0 then start + len else len
  let base := if mt = 0 then 0 else start
  let ap := if g.isRar then c.msg3DmrsAddPos else c.dmrsAddPos
  (dmrsRelative mt ld ap l0 double).map (base + ·)

/-- The DMRS type, CDM groups, ports and length of a grant (R630, R631); `none` where the antenna-ports
value is reserved or transform precoding meets DMRS type 2. -/
def dmrsShape (c : CfgRegs) (g : Grant) (len : Nat) : Option (Nat × Nat × BitVec 16 × Bool) :=
  if g.source = 1 then
    if g.tp c = true ∧ c.dmrsType = 2 then none
    else (antPortLookup (g.tp c) c.dmrsType c.dmrsMaxLength g.layers g.antennaPorts).map fun r =>
      (c.dmrsType, r.cdmPred.val + 1, r.ports.setWidth 16, r.double)
  else some (1, if g.tp c = false ∧ len ≤ 2 then 1 else 2, 1, false)

/-- The DMRS of a grant, `none` where its shape is reserved or a DMRS symbol is outside the allocation
(R629 to R632, R661 check 6). -/
def dmrsOf (c : CfgRegs) (g : Grant) (mt start len : Nat) : Option Dmrs :=
  (dmrsShape c g len).bind fun sh =>
    let symbols := dmrsSymbols c g mt start len sh.2.2.2
    if symbols.all fun l => decide (start ≤ l ∧ l < start + len) then
      some ⟨sh.1, sh.2.1, sh.2.2.1, sh.2.2.2, symbols⟩
    else none

/-- `ul_dmrs_symb_pos` (R632). -/
def Dmrs.mask (d : Dmrs) : BitVec 16 := maskOf 16 d.symbols

/-- `N_RE` (R634), which may be negative. -/
def dataRes (d : Dmrs) (len rbSize : Nat) : Int :=
  let perRb : Int := (if d.dmrsType = 1 then 6 else 4) * d.cdm
  min 156 (12 * (len : Int) - perRb * popcount d.mask) * rbSize

/-! ### PTRS (spec/42_pusch_builder.md R645 to R649) -/

/-- The time density `L_ptrs` (R646). -/
def ptrsTimeDensity (c : CfgRegs) (mcs : Nat) : Option Nat :=
  if c.ptrsMcs1 = 255 then some 1
  else if mcs < c.ptrsMcs1 then none
  else if mcs < c.ptrsMcs2 then some 4
  else if mcs < c.ptrsMcs3 then some 2
  else some 1

/-- The frequency density `K_ptrs` (R647). -/
def ptrsFreqDensity (c : CfgRegs) (rbSize : Nat) : Option Nat :=
  if c.ptrsNrb0 = 0xFFFF then some 2
  else if rbSize < c.ptrsNrb0 then none
  else if rbSize < c.ptrsNrb1 then some 2
  else some 4

/-- The loop of R648 from the values `i` and `ref`: the PTRS symbols counted from the PUSCH start. The low
end of the window rises at each turn, so 15 turns are enough for 14 symbols. -/
def ptrsLoop (dm : Nat → Bool) (density len : Nat) : Nat → Nat → Nat → List Nat
  | 0, _, _ => []
  | fuel + 1, i, ref =>
    let hi := ref + i * density
    if len ≤ hi then []
    else
      let lo := if i = 0 then ref else ref + (i - 1) * density + 1
      match ((List.range' lo (hi + 1 - lo)).filter dm).getLast? with
      | some t => ptrsLoop dm density len fuel 1 t
      | none => hi :: ptrsLoop dm density len fuel (i + 1) ref

/-- `ptrs_symb_pos` (R648). -/
def ptrsSymbols (d : Dmrs) (density start len : Nat) : BitVec 16 :=
  maskOf 16 ((ptrsLoop (fun t => decide (start + t ∈ d.symbols)) density len 15 0 0).map (start + ·))

/-- PTRS of a grant: `K_ptrs`, `L_ptrs` and the symbols, or `none` where it is off (R645). -/
def ptrsOf (c : CfgRegs) (g : Grant) (d : Dmrs) (rbSize start len : Nat) : Option (Nat × Nat × BitVec 16) :=
  if g.tp c = false ∧ c.ptrsEnabled = 1 ∧ g.source ≤ 1 then
    match ptrsTimeDensity c g.mcs, ptrsFreqDensity c rbSize with
    | some l, some k =>
      if ptrsSymbols d l start len = 0 then none else some (k, l, ptrsSymbols d l start len)
    | _, _ => none
  else none

/-! ### PUSCH_BUILD (spec/42_pusch_builder.md R660 to R663) -/

/-- What a grant that passes its checks determines (R660). -/
structure Alloc where
  rbStart : Nat
  rbSize : Nat
  startSymbol : Nat
  len : Nat
  mt : Nat
  row : McsRow
  dmrs : Dmrs
  tbsBytes : Nat
  codeRate : Nat
deriving DecidableEq, Repr

/-- The grant's transport block in bytes: computed for new data, cached for a retransmission (R636). -/
def grantTbs (new : Bool) (h : HarqEntry) (nRe : Int) (row : McsRow) (layers : Nat) : Nat :=
  if new then tbsCompute nRe row.rate.val row.qm.val layers / 8 else h.tbsBytes

/-- The checks of a grant in their order (R661), and what it determines. A SLIV that decodes to nothing,
which CFG_WRITE lets into no row in use, counts as a bad field. -/
def evalGrant (s : State) (g : Grant) : Except Int Alloc := do
  let c := s.cfg
  grantCheck (g.source ≤ 3) errUnsupportedFormat
  grantCheck (g.fieldsLegal c = true) errBadField
  grantCheck (g.tp c = true → g.layers = 1) errBadField
  let rb ← grantValue (rivDecode g.riv c.bwpSize) errBadField
  grantCheck (g.tp c = true → smooth235 rb.2 = true) errBadField
  let row := mcsLookup (g.tp c) (g.tableCode c) g.mcs
  grantCheck (row.qm.val = 2 ∨ row.qm.val = 4 ∨ row.qm.val = 6 ∨ row.qm.val = 8) errModOrderZero
  let tr := c.tdraRow g.tdraIndex
  let sl ← grantValue (slivDecode tr.sliv) errBadField
  let d ← grantValue (dmrsOf c g tr.mappingType sl.1 sl.2) errBadField
  grantCheck (g.source = 1 → g.tpmi ≠ 0 → (wLookup c.nAnt g.layers g.tpmi).isSome = true) errBadField
  let h := s.harqEntry g.pid
  let tbs := grantTbs (g.newData h) h (dataRes d sl.2 rb.2) row g.layers
  grantCheck (tbs ≠ 0) errTbsZero
  pure ⟨rb.1, rb.2, sl.1, sl.2, tr.mappingType, row, d, tbs,
    if g.newData h then row.rate.val else h.codeRate⟩

/-- The PUSCH PDU of R663 but for `tx_power`, which is 0 in it. -/
def pduWithoutPower (s : State) (g : Grant) (x : Alloc) (frame slot : Nat) : Pdu :=
  let c := s.cfg
  let pt := ptrsOf c g x.dmrs x.rbSize x.startSymbol x.len
  let scid := if g.source = 1 then g.scid else 0
  { pduBitMap := pduBitMapOf (g.harqAckBits ≠ 0 || g.csiP1Bits ≠ 0 || g.csiP2Bits ≠ 0) pt.isSome (g.tp c)
    rnti := g.rnti
    bwpStart := c.bwpStart
    bwpSize := c.bwpSize
    rbStart := x.rbStart
    rbSize := x.rbSize
    startSymbol := x.startSymbol
    nrOfSymbols := x.len
    mcsIndex := g.mcs
    mcsTable := g.tableCode c
    modOrder := x.row.qm.val
    nLayers := g.layers
    codeRate := x.codeRate
    tbsBytes := x.tbsBytes
    harqPid := g.pid
    ndi := g.ndi
    rv := g.rv
    transformPrecoding := flagNum (g.tp c)
    ulDmrsSymbPos := x.dmrs.mask
    dmrsConfigType := x.dmrs.dmrsType
    numDmrsCdmGrpsNoData := x.dmrs.cdm
    dmrsPorts := x.dmrs.ports
    ulDmrsScramblingId := if scid = 1 then c.dmrsScramblingId1 else c.dmrsScramblingId0
    scid := scid
    dmrsDouble := flagNum x.dmrs.double
    ptrsK := (pt.map fun p => p.1).getD 0
    ptrsL := (pt.map fun p => p.2.1).getD 0
    ptrsSymbPos := (pt.map fun p => p.2.2).getD 0
    ptrsReOffset := if pt.isSome then c.ptrsReOffset else 0
    ptrsLayer := 0
    tpmi := if g.source = 1 then g.tpmi else 0
    nAnt := c.nAnt
    tpcDelta := 0
    mappingType := x.mt
    txPower := 0
    harqAckBits := g.harqAckBits
    csiP1Bits := g.csiP1Bits
    csiP2Bits := g.csiP2Bits
    payloadAddr := g.payloadAddr
    frame := frame
    slot := slot
    reserved := 0 }

/-- The PUSCH PDU a grant builds (R663); its power is P_PUSCH of the grant and the other fields, and the
grant's TPC has no effect on it (R650). -/
def builtPdu (s : State) (g : Grant) (x : Alloc) (frame slot : Nat) : Pdu :=
  let p := pduWithoutPower s g x frame slot
  { p with txPower := Config.pPusch { g with tpc := 0 } p }

/-- The HARQ update of a successful grant (R662). -/
def HarqEntry.update (g : Grant) (x : Alloc) (h : HarqEntry) : HarqEntry :=
  if g.newData h then ⟨g.ndi, x.tbsBytes, x.row.rate.val, x.row.qm.val, 0⟩
  else { h with round := min (h.round + 1) 255 }

/-- A successful grant: the entry's payload, the HARQ process and the results (R660, R662, R663). -/
def State.buildGrant (g : Grant) (x : Alloc) (k e : Nat) (s : State) : State :=
  let p := builtPdu s g x (s.slotRec k).tagFrame k
  let t := (s.modSlot k fun r => r.modEntry e fun y => { y with payload := pduBytes p })
  let u : State := { t with harq := t.harq.modify g.pid (HarqEntry.update g x) }
  ((u.setRes0 (BitVec.ofNat 32 p.tbsBytes)).setRes1 (p.pduBitMap.setWidth 32)).ret statusOk

/-- PUSCH_BUILD (R660). A frame or slot field of the grant out of range is a bad descriptor field
(spec/30_encoding.md R310, log 9). `payload_addr` is an address field it reads (spec/20_memory.md R201, log 20). -/
def puschBuildBody (daddr : Nat) (s : State) : Except Stop State := do
  require (s.initDone = true) .notInitialised
  let bs ← readDesc s daddr 32
  let g := grantOfBytes bs
  require (grantReserved bs = 0) .badArg
  require (g.rxFrame ≤ 1023 ∧ g.rxSlot < s.spf) .badArg
  require (g.payloadAddr < 2 ^ 26) .dmemRange
  let h := s.port.arg0.toNat
  require (h ≠ 0xFFFFFFFF) .fatalNull
  require (h < 2 ^ 16) .badHandle
  let (k, e) ← checkHandle s h
  require (e < (s.slotRec k).numberPdus ∧ ((s.slotRec k).entry e).pduType = 3) .badHandle
  match evalGrant s g with
  | .error code => pure (s.skipGrant code (s.slotRec k).tagFrame k)
  | .ok x => pure (s.buildGrant g x k e)

/-- PUSCH_BUILD, opcode 0x11 (spec/42_pusch_builder.md R660). -/
def execPuschBuild (daddr : Nat) (s : State) : Host.Outcome State Fault Refusal :=
  .next (finish s (puschBuildBody daddr s))

/-! ### HARQ_READ (spec/42_pusch_builder.md R670) -/

/-- HARQ_READ (R670). -/
def harqReadBody (pid : Nat) (s : State) : Except Stop State := do
  require (s.initDone = true) .notInitialised
  require (pid ≤ 15) .badArg
  let a := s.port.arg0.toNat
  checkRegion s a 12 4
  pure ({ s with mem := writeBytes s.mem a (harqRecord (s.harqEntry pid)) }.ret statusOk)

/-- HARQ_READ, opcode 0x12 (spec/42_pusch_builder.md R670). -/
def execHarqRead (index : Nat) (s : State) : Host.Outcome State Fault Refusal :=
  .next (finish s (harqReadBody index s))

end Sys2Proof.Machine
end

