-- ==== Sys2Proof/Machine/ConfigStore.lean ====
section
/-! DEFINITION. The configuration commands and the slot-indexed store: CFG_WRITE, INIT, UL_LOCK_GET, UL_RELEASE,
UL_REMOVE_LAST, UL_ITER_GET, UL_PDU_WRITE, UL_PDU_READ (spec/40_config_store.md). Each command is a body,
its checks and effects in the order of the rule's pseudocode, and its meaning, the body's `finish`. -/

namespace Sys2Proof.Machine

/-! ### CFG_WRITE (spec/40_config_store.md R440, spec/10_state.md R108) -/

/-- The carrier, duplex and bandwidth-part fields of CFG are legal (R108). -/
def CfgRegs.carrierLegal (c : CfgRegs) : Bool := decide
  (c.mu ≤ 4 ∧ c.duplex ≤ 1 ∧ 1 ≤ c.nRbCarrier ∧ c.nRbCarrier ≤ 275 ∧
   12 * c.nRbCarrier ≤ c.fftSize ∧ c.fftSize ≤ 4096 ∧ c.firstCarrierOffset < c.fftSize ∧
   1 ≤ c.bwpSize ∧ c.bwpStart + c.bwpSize ≤ c.nRbCarrier)

/-- The antenna, transform-precoding and DMRS fields of CFG are legal (R108). -/
def CfgRegs.antennaLegal (c : CfgRegs) : Bool := decide
  ((c.nAnt = 1 ∨ c.nAnt = 2 ∨ c.nAnt = 4) ∧ 1 ≤ c.maxRank ∧ c.maxRank ≤ min 4 c.nAnt ∧
   c.tpEnabled ≤ 1 ∧ c.msg3TpEnabled ≤ 1 ∧ (c.dmrsType = 1 ∨ c.dmrsType = 2) ∧
   (c.dmrsMaxLength = 1 ∨ c.dmrsMaxLength = 2) ∧ c.dmrsAddPos ≤ 3 ∧ c.msg3DmrsAddPos ≤ 3 ∧
   (c.dmrsTypeAPos = 2 ∨ c.dmrsTypeAPos = 3))

/-- The PTRS fields of CFG are legal (R108). -/
def CfgRegs.ptrsLegal (c : CfgRegs) : Bool := decide
  (c.ptrsEnabled ≤ 1 ∧ c.ptrsReOffset ≤ 3 ∧
   ((c.ptrsMcs1 = 255 ∧ c.ptrsMcs2 = 255 ∧ c.ptrsMcs3 = 255) ∨
    (c.ptrsMcs1 ≤ c.ptrsMcs2 ∧ c.ptrsMcs2 ≤ c.ptrsMcs3 ∧ c.ptrsMcs3 ≤ 31)) ∧
   ((c.ptrsNrb0 = 0xFFFF ∧ c.ptrsNrb1 = 0xFFFF) ∨
    (1 ≤ c.ptrsNrb0 ∧ c.ptrsNrb0 ≤ c.ptrsNrb1 ∧ c.ptrsNrb1 ≤ 275)))

/-- The MCS, time-allocation and slot-mask fields of CFG are legal (R108): rows at and above `n_tdra` are
not looked at, and no mask bit at or above spf is set. -/
def CfgRegs.timeLegal (c : CfgRegs) : Bool :=
  decide (c.mcsTable ≤ 2 ∧ c.mcsTableTp ≤ 1 ∧ c.msg3Delta ≤ 15 ∧ 1 ≤ c.nTdra ∧ c.nTdra ≤ 16) &&
  ((c.tdra.take c.nTdra).all TdraRow.legal) && decide (c.ulSlotMask.toNat < 2 ^ c.spf)

/-- Every field of CFG holds one of its legal values (R108). -/
def CfgRegs.legal (c : CfgRegs) : Bool :=
  c.carrierLegal && c.antennaLegal && c.ptrsLegal && c.timeLegal

/-- CFG_WRITE (R440). -/
def cfgWriteBody (daddr : Nat) (s : State) : Except Stop State := do
  let bs ← readDesc s daddr 128
  require (cfgReserved bs = 0) .badConfig
  require ((cfgOfBytes bs).legal = true) .badConfig
  require (s.initDone = true → (cfgOfBytes bs).mu = s.cfg.mu) .badConfig
  pure ({ s with cfg := cfgOfBytes bs, cfgValid := true }.ret statusOk)

/-- CFG_WRITE, opcode 0x01 (spec/40_config_store.md R440). -/
def execCfgWrite (daddr : Nat) (s : State) : Host.Outcome State Fault Refusal :=
  .next (finish s (cfgWriteBody daddr s))

/-! ### INIT (spec/40_config_store.md R441) -/

/-- An entry never reserved since INIT (spec/10_state.md R111). -/
def Entry.fresh : Entry := ⟨0, List.replicate 64 0⟩

/-- The slot record INIT builds for slot index `k`: N_PDU + 1 entries (spec/10_state.md R110). -/
def SlotRec.fresh (nPdu k : Nat) : SlotRec := ⟨none, [], 0, k, 0, List.replicate (nPdu + 1) Entry.fresh⟩

/-- The store INIT builds (R441). -/
def freshStore (spf nPdu : Nat) : List SlotRec := (List.range spf).map (SlotRec.fresh nPdu)

/-- INIT (R441). -/
def initBody (s : State) : Except Stop State := do
  require (s.cfgValid = true) .notInitialised
  require (s.initDone = false) .badArg
  pure ({ s with store := freshStore s.spf s.build.nPdu, initDone := true }.ret statusOk)

/-- INIT, opcode 0x02 (spec/40_config_store.md R441). -/
def execInit (s : State) : Host.Outcome State Fault Refusal := .next (finish s (initBody s))

/-! ### UL_LOCK_GET (spec/40_config_store.md R401) -/

/-- The tag of slot `k` names another frame or slot while PDUs are present (R401). -/
def State.staleTag (frame k : Nat) (s : State) : Bool :=
  decide ((s.slotRec k).numberPdus ≠ 0 ∧ ((s.slotRec k).tagFrame ≠ frame ∨ (s.slotRec k).tagSlot ≠ k))

/-- The stale-tag recovery and the new tag (R401). -/
def State.retag (frame k : Nat) (s : State) : State :=
  if s.staleTag frame k then
    (s.log okStaleRecovered frame k).modSlot k fun r =>
      { r with numberPdus := 0, tagFrame := frame, tagSlot := k }
  else s.modSlot k fun r => { r with tagFrame := frame, tagSlot := k }

/-- Reserve the next entry of slot `k` for a PDU of type `ptype` (R401). -/
def State.reserve (ptype k : Nat) (s : State) : State :=
  s.modSlot k fun r =>
    { r with
      numberPdus := r.numberPdus + 1
      entries := r.entries.modify r.numberPdus fun e => { e with pduType := ptype } }

/-- What UL_LOCK_GET does once it holds the lock: recover and tag, then reserve an entry, or release the
lock again where the slot is full (R401). -/
def lockGetGranted (ptype frame k : Nat) (s : State) : State :=
  let t := s.retag frame k
  if t.build.nPdu ≤ (t.slotRec k).numberPdus then
    (((t.log errCapacity frame k).release k).setRes0 nullHandle).ret errCapacity
  else
    ((t.reserve ptype k).setRes0 (handleWord k (t.slotRec k).numberPdus)).ret
      (if s.staleTag frame k then okStaleRecovered else statusOk)

/-- UL_LOCK_GET (R401). -/
def ulLockGetBody (ptype frame slot : Nat) (s : State) : Except Stop State := do
  require (s.initDone = true) .notInitialised
  require (slot < s.spf) .badArg
  require (1 ≤ ptype ∧ ptype ≤ 4) .fatalInvalidEnum
  if s.ulSlot slot = false then
    pure (((s.log errNotUlSlot frame slot).setRes0 nullHandle).ret errNotUlSlot)
  else do
    let t ← s.acquire slot
    pure (lockGetGranted ptype frame slot t)

/-- UL_LOCK_GET, opcode 0x08 (spec/40_config_store.md R401). -/
def execUlLockGet (ptype frame slot : Nat) (s : State) : Host.Outcome State Fault Refusal :=
  .next (finish s (ulLockGetBody ptype frame slot s.unwait))

/-! ### UL_RELEASE and UL_REMOVE_LAST (spec/40_config_store.md R410, R412) -/

/-- UL_RELEASE (R410). -/
def ulReleaseBody (clr handle : Nat) (s : State) : Except Stop State := do
  require (s.initDone = true) .notInitialised
  let (k, _) ← checkHandle s handle
  let t := if clr = 1 then s.modSlot k fun r => { r with numberPdus := 0 } else s
  pure ((t.release k).ret statusOk)

/-- UL_RELEASE, opcode 0x09 (spec/40_config_store.md R410). -/
def execUlRelease (clr handle : Nat) (s : State) : Host.Outcome State Fault Refusal :=
  .next (finish s (ulReleaseBody clr handle s))

/-- UL_REMOVE_LAST (R412). -/
def ulRemoveLastBody (handle : Nat) (s : State) : Except Stop State := do
  require (s.initDone = true) .notInitialised
  let (k, _) ← checkHandle s handle
  require ((s.slotRec k).numberPdus ≠ 0) .storeUnderflow
  pure ((s.modSlot k fun r => { r with numberPdus := r.numberPdus - 1 }).ret statusOk)

/-- UL_REMOVE_LAST, opcode 0x0A (spec/40_config_store.md R412). -/
def execUlRemoveLast (handle : Nat) (s : State) : Host.Outcome State Fault Refusal :=
  .next (finish s (ulRemoveLastBody handle s))

/-! ### UL_ITER_GET (spec/40_config_store.md R420) -/

/-- The END sentinel after the last PDU (R420, spec/30_encoding.md R311). -/
def SlotRec.withEnd (r : SlotRec) : SlotRec := r.modEntry r.numberPdus fun e => { e with pduType := 5 }

/-- UL_ITER_GET (R420); the frame is not compared with the tag. -/
def ulIterGetBody (slot : Nat) (s : State) : Except Stop State := do
  require (s.initDone = true) .notInitialised
  require (slot < s.spf) .badArg
  if s.ulSlot slot = false then
    pure (((s.setRes0 nullHandle).setRes1 0).ret errNotUlSlot)
  else do
    let t ← s.acquire slot
    let n := (t.slotRec slot).numberPdus
    pure ((((t.modSlot slot SlotRec.withEnd).setRes0 (handleWord slot 0)).setRes1
      (BitVec.ofNat 32 n)).ret statusOk)

/-- UL_ITER_GET, opcode 0x0B (spec/40_config_store.md R420). -/
def execUlIterGet (_frame slot : Nat) (s : State) : Host.Outcome State Fault Refusal :=
  .next (finish s (ulIterGetBody slot s.unwait))

/-! ### UL_PDU_WRITE and UL_PDU_READ (spec/40_config_store.md R430, R431) -/

/-- UL_PDU_WRITE (R430). -/
def ulPduWriteBody (handle : Nat) (s : State) : Except Stop State := do
  require (s.initDone = true) .notInitialised
  let (k, e) ← checkHandle s handle
  require (e < (s.slotRec k).numberPdus) .badHandle
  let a := s.port.arg0.toNat
  checkRegion s a 64 4
  pure ((s.modSlot k fun r => r.modEntry e fun x => { x with payload := readBytes s.mem a 64 }).ret statusOk)

/-- UL_PDU_WRITE, opcode 0x0C (spec/40_config_store.md R430). -/
def execUlPduWrite (handle : Nat) (s : State) : Host.Outcome State Fault Refusal :=
  .next (finish s (ulPduWriteBody handle s))

/-- UL_PDU_READ (R431); the entry at `number_pdus` may be read. -/
def ulPduReadBody (handle : Nat) (s : State) : Except Stop State := do
  require (s.initDone = true) .notInitialised
  let (k, e) ← checkHandle s handle
  require (e ≤ (s.slotRec k).numberPdus) .badHandle
  let a := s.port.arg0.toNat
  checkRegion s a 64 4
  let x := (s.slotRec k).entry e
  pure (({ s with mem := writeBytes s.mem a x.bytes }.setRes0 (BitVec.ofNat 32 x.pduType)).ret statusOk)

/-- UL_PDU_READ, opcode 0x0D (spec/40_config_store.md R431). -/
def execUlPduRead (handle : Nat) (s : State) : Host.Outcome State Fault Refusal :=
  .next (finish s (ulPduReadBody handle s))

end Sys2Proof.Machine
end

