-- ==== Sys2Proof/Syntax.lean ====
section
/-! DEFINITION. The commands of PTB-CMD-1, one constructor for each row of spec/opcode_table.json
(spec/30_encoding.md R305). Every operand is the unsigned number its field holds (R302). -/

namespace Sys2Proof

/-- One command. `daddr` is a word index into DMEM (byte address `4 * daddr`), `handle` a store handle,
`index` a HARQ ID or an LCID (spec/30_encoding.md R302). -/
inductive Instr where
  | cfgWrite (daddr : Nat)
  | init
  | lcConfig (daddr : Nat)
  | taExpiry
  | ulLockGet (ptype frame slot : Nat)
  | ulRelease (clr handle : Nat)
  | ulRemoveLast (handle : Nat)
  | ulIterGet (frame slot : Nat)
  | ulPduWrite (handle : Nat)
  | ulPduRead (handle : Nat)
  | grantTarget (daddr : Nat)
  | puschBuild (daddr : Nat)
  | harqRead (index : Nat)
  | lcpRun (daddr : Nat)
  | bsrEval (daddr : Nat)
  | lcRead (index : Nat)
  | layerMap (daddr : Nat)
  | tpDft (daddr : Nat)
  | mapPusch (daddr : Nat)
  | precode (daddr : Nat)
  | llr16Qam (daddr : Nat)
  | llr64Qam (daddr : Nat)
  | llr256Qam (daddr : Nat)
deriving DecidableEq, Repr

end Sys2Proof
end

