-- ==== Sys2Proof/WellFormed.lean ====
section
/-! DEFINITION. When a command's operands fit the fields of its format (spec/30_encoding.md R301). A
well-formed command is one that a command word can carry; whether its operands are LEGAL (a slot below
spf, a PDU type of R311) is a check the command makes when it runs. -/

namespace Sys2Proof

/-- Every operand fits its field: DADDR 24 bits, PTYPE 3, FRAME 10, SLOT 8, CLR 1, HANDLE 16, INDEX 8
(spec/30_encoding.md R301). -/
def Instr.wf : Instr → Bool
  | .cfgWrite daddr => decide (daddr < 2 ^ 24)
  | .init => true
  | .lcConfig daddr => decide (daddr < 2 ^ 24)
  | .taExpiry => true
  | .ulLockGet ptype frame slot => decide (ptype < 8) && decide (frame < 1024) && decide (slot < 256)
  | .ulRelease clr handle => decide (clr < 2) && decide (handle < 65536)
  | .ulRemoveLast handle => decide (handle < 65536)
  | .ulIterGet frame slot => decide (frame < 1024) && decide (slot < 256)
  | .ulPduWrite handle => decide (handle < 65536)
  | .ulPduRead handle => decide (handle < 65536)
  | .grantTarget daddr => decide (daddr < 2 ^ 24)
  | .puschBuild daddr => decide (daddr < 2 ^ 24)
  | .harqRead index => decide (index < 256)
  | .lcpRun daddr => decide (daddr < 2 ^ 24)
  | .bsrEval daddr => decide (daddr < 2 ^ 24)
  | .lcRead index => decide (index < 256)
  | .layerMap daddr => decide (daddr < 2 ^ 24)
  | .tpDft daddr => decide (daddr < 2 ^ 24)
  | .mapPusch daddr => decide (daddr < 2 ^ 24)
  | .precode daddr => decide (daddr < 2 ^ 24)
  | .llr16Qam daddr => decide (daddr < 2 ^ 24)
  | .llr64Qam daddr => decide (daddr < 2 ^ 24)
  | .llr256Qam daddr => decide (daddr < 2 ^ 24)

end Sys2Proof
end

