-- ==== Sys2Proof/Decode.lean ====
section
/-! DEFINITION. From command words to commands and back (spec/30_encoding.md R300 to R306). `decode` is
total and rejects by name; `encode` is written from the same formats. -/

namespace Sys2Proof

/-- Why a command word is no command: the two faults of spec/60_exceptions.md R1010 step 2. -/
inductive DecodeError where
  /-- The opcode is not in R305 (spec/30_encoding.md R306). -/
  | illegalCommand
  /-- A reserved bit, an unused PTYPE or an unused CLR is not zero (spec/30_encoding.md R303). -/
  | reservedField
deriving DecidableEq, Repr

/-- A decoded command whose reserved bits (all of `reserved` must be zero) have been checked (R303). -/
def checked (reserved : Nat) (i : Instr) : Except DecodeError Instr :=
  if reserved = 0 then .ok i else .error .reservedField

/-- Format F_DESC: 25:24 reserved, 23:0 DADDR (R301). -/
def decodeDesc (mk : Nat → Instr) (n : Nat) : Except DecodeError Instr :=
  checked (bits n 25 24) (mk (bits n 23 0))

/-- Format F_NONE: 25:0 reserved (R301). -/
def decodeNone (i : Instr) (n : Nat) : Except DecodeError Instr := checked (bits n 25 0) i

/-- Format F_INDEX: 25:8 reserved, 7:0 INDEX (R301). -/
def decodeIndex (mk : Nat → Instr) (n : Nat) : Except DecodeError Instr :=
  checked (bits n 25 8) (mk (bits n 7 0))

/-- Format F_HANDLE of a command that does not use CLR: 25:16 must be zero (R301, R303). -/
def decodeHandle (mk : Nat → Instr) (n : Nat) : Except DecodeError Instr :=
  checked (bits n 25 16) (mk (bits n 15 0))

/-- Format F_HANDLE of UL_RELEASE: 25 CLR, 24:16 reserved, 15:0 HANDLE (R301). -/
def decodeRelease (n : Nat) : Except DecodeError Instr :=
  checked (bits n 24 16) (.ulRelease (bits n 25 25) (bits n 15 0))

/-- Format F_SLOT of UL_LOCK_GET: 25:23 PTYPE, 22 reserved, 21:12 FRAME, 11:4 SLOT, 3:0 reserved. -/
def decodeLockGet (n : Nat) : Except DecodeError Instr :=
  checked (bits n 22 22 + bits n 3 0) (.ulLockGet (bits n 25 23) (bits n 21 12) (bits n 11 4))

/-- Format F_SLOT of UL_ITER_GET, whose PTYPE is unused and must be zero (R303). -/
def decodeIterGet (n : Nat) : Except DecodeError Instr :=
  checked (bits n 25 22 + bits n 3 0) (.ulIterGet (bits n 21 12) (bits n 11 4))

/-- The opcode map (spec/30_encoding.md R305); every opcode outside it is illegal (R306). -/
def decode (w : Word) : Except DecodeError Instr :=
  let n := w.toNat
  match bits n 31 26 with
  | 0x01 => decodeDesc .cfgWrite n
  | 0x02 => decodeNone .init n
  | 0x03 => decodeDesc .lcConfig n
  | 0x04 => decodeNone .taExpiry n
  | 0x08 => decodeLockGet n
  | 0x09 => decodeRelease n
  | 0x0A => decodeHandle .ulRemoveLast n
  | 0x0B => decodeIterGet n
  | 0x0C => decodeHandle .ulPduWrite n
  | 0x0D => decodeHandle .ulPduRead n
  | 0x10 => decodeDesc .grantTarget n
  | 0x11 => decodeDesc .puschBuild n
  | 0x12 => decodeIndex .harqRead n
  | 0x14 => decodeDesc .lcpRun n
  | 0x15 => decodeDesc .bsrEval n
  | 0x16 => decodeIndex .lcRead n
  | 0x18 => decodeDesc .layerMap n
  | 0x19 => decodeDesc .tpDft n
  | 0x1A => decodeDesc .mapPusch n
  | 0x1B => decodeDesc .precode n
  | 0x20 => decodeDesc .llr16Qam n
  | 0x21 => decodeDesc .llr64Qam n
  | 0x22 => decodeDesc .llr256Qam n
  | _ => .error .illegalCommand

/-- A command word from its opcode and the number in bits 25:0. -/
def wordOf (opc low : Nat) : Word := BitVec.ofNat 32 (opc * 2 ^ 26 + low)

/-- The command word of a well-formed command (spec/30_encoding.md R301, R305). -/
def encode : Instr → Word
  | .cfgWrite daddr => wordOf 0x01 daddr
  | .init => wordOf 0x02 0
  | .lcConfig daddr => wordOf 0x03 daddr
  | .taExpiry => wordOf 0x04 0
  | .ulLockGet ptype frame slot => wordOf 0x08 (ptype * 2 ^ 23 + frame * 2 ^ 12 + slot * 2 ^ 4)
  | .ulRelease clr handle => wordOf 0x09 (clr * 2 ^ 25 + handle)
  | .ulRemoveLast handle => wordOf 0x0A handle
  | .ulIterGet frame slot => wordOf 0x0B (frame * 2 ^ 12 + slot * 2 ^ 4)
  | .ulPduWrite handle => wordOf 0x0C handle
  | .ulPduRead handle => wordOf 0x0D handle
  | .grantTarget daddr => wordOf 0x10 daddr
  | .puschBuild daddr => wordOf 0x11 daddr
  | .harqRead index => wordOf 0x12 index
  | .lcpRun daddr => wordOf 0x14 daddr
  | .bsrEval daddr => wordOf 0x15 daddr
  | .lcRead index => wordOf 0x16 index
  | .layerMap daddr => wordOf 0x18 daddr
  | .tpDft daddr => wordOf 0x19 daddr
  | .mapPusch daddr => wordOf 0x1A daddr
  | .precode daddr => wordOf 0x1B daddr
  | .llr16Qam daddr => wordOf 0x20 daddr
  | .llr64Qam daddr => wordOf 0x21 daddr
  | .llr256Qam daddr => wordOf 0x22 daddr

/-- The number the low `nbits` bits of `w` hold, as a command word; the bits above are zero. -/
def tableWord (nbits w : Nat) : Word := BitVec.ofNat 32 (w % 2 ^ nbits)

/-- The command the decoder reads from the word whose low `nbits` bits are those of `w`; a command
word arrives whole in CMD (spec/20_memory.md R211), so there is no byte order to undo. -/
def decodeTableWord (nbits w : Nat) : Option Instr :=
  match decode (tableWord nbits w) with
  | .ok i => some i
  | .error _ => none

end Sys2Proof
end

