-- ==== Sys2Proof/Machine/Inputs.lean ====
section
/-! DEFINITION. What the outside world does to the PTB (spec/10_state.md R101 to R103,
spec/20_memory.md R222), and how a port's issued command word becomes a command
(spec/30_encoding.md R300). Step.lean only calls these. -/

namespace Sys2Proof.Machine

/-- An agent writes its port's ARG register `k` (spec/10_state.md R101, log 23). -/
def State.setArg (p : Nat) (k : Fin 4) (v : Word) (s : State) : State :=
  { s with ports := s.ports.modify p fun r =>
      match k with
      | 0 => { r with arg0 := v }
      | 1 => { r with arg1 := v }
      | 2 => { r with arg2 := v }
      | 3 => { r with arg3 := v } }

/-- Port `p` has an issued command that has not ended (spec/10_state.md R101). -/
def State.busyPort (s : State) (p : Nat) : Bool := (s.ports.getD p Port.afterReset).busy

/-- An agent writes its port's CMD: a command is issued, unless BUSY is 1 or the PTB is halted, when the
write is ignored (spec/10_state.md R102, R103, spec/60_exceptions.md R1022). -/
def State.writeCmd (p : Nat) (w : Word) (s : State) : State :=
  if s.halted = true ∨ s.busyPort p = true then s
  else { s with ports := s.ports.modify p fun r => { r with cmd := w, busy := true } }

/-- An agent writes a DMEM byte (spec/20_memory.md R222, R237); which agent it is matters to the races of a
run only (Safety.lean). -/
def State.pokeDmem (a : Nat) (b : Byte) (s : State) : State := { s with mem := writeByte s.mem a b }

/-- The command the issuing port's CMD holds, or the fault its word raises
(spec/30_encoding.md R303, R306, spec/60_exceptions.md R1010 step 2). -/
def State.fetch (s : State) : Except FaultCode Instr :=
  match decode s.port.cmd with
  | .ok i => .ok i
  | .error .illegalCommand => .error .illegalCommand
  | .error .reservedField => .error .reservedField

/-- The port the PTB serves when no input names one: a free choice (spec/60_exceptions.md R1030, log 5). -/
def State.freePort (s : State) : Nat := Config.arbiter s.draws % s.build.nPorts

end Sys2Proof.Machine
end

