-- ==== Sys2Proof/Machine/Lcp.lean ====
section
/-! DEFINITION. The logical-channel table, the LCP engine and the BSR: LC_CONFIG, LC_READ, LCP_RUN, BSR_EVAL
(spec/41_lcp_bsr.md), over the RLC oracle (spec/20_memory.md R240). -/

namespace Sys2Proof.Machine

/-! ### The RLC oracle (spec/20_memory.md R240, log 4) -/

/-- `RLC.status(j)`: the next listed answer, else a free one. -/
def State.rlcStatus (j : Nat) (s : State) : Nat × State :=
  match s.rlc with
  | a :: rest => (a.status.toNat, { s with rlc := rest })
  | [] => ((Config.rlcStatus s.draws j).toNat, { s with draws := s.draws + 1 })

/-- `RLC.data_req(j, n)`: at most `n` bytes of the next listed answer, else of a free one. -/
def State.rlcData (j n : Nat) (s : State) : List Byte × State :=
  match s.rlc with
  | a :: rest => (a.data.take n, { s with rlc := rest })
  | [] => ((Config.rlcData s.draws j).take n, { s with draws := s.draws + 1 })

/-- `RLC.status` of each channel of a list, in its order: the channels with their answers. -/
def State.rlcStatuses : List Nat → State → List (Nat × Nat) × State
  | [], s => ([], s)
  | j :: rest, s =>
    let q := s.rlcStatus j
    let r := q.2.rlcStatuses rest
    ((j, q.1) :: r.1, r.2)

/-! ### LC_CONFIG and LC_READ (spec/41_lcp_bsr.md R500, R502) -/

/-- The checks of an LC config descriptor (R500). -/
def LcDesc.legal (spf : Nat) (d : LcDesc) : Bool := decide
  (d.reserved = 0 ∧ d.lcid ≤ 32 ∧ 1 ≤ d.priority ∧ d.priority ≤ 16 ∧ d.lcg ≤ 7 ∧ d.flags < 4 ∧
   d.bucketSize < 2 ^ 31 ∧ d.frame ≤ 1023 ∧ d.slot < spf)

/-- The configured channel LC_CONFIG makes of an entry, at absolute slot `now` (R500). -/
def LcEntry.configure (d : LcDesc) (now : Nat) (l : LcEntry) : LcEntry where
  configured := true
  priority := d.priority
  lcg := d.lcg
  pbrInf := bits d.flags 1 1 == 1
  pbrMs := d.pbrMs
  bucketSize := d.bucketSize
  bj :=
    if l.configured = false then 0
    else if bits d.flags 1 1 = 1 then l.bj
    else min l.bj d.bucketSize
  lastUpdate := if l.configured = false then now else l.lastUpdate

/-- The entry LC_CONFIG writes: configured, or released to all zero (R500). -/
def LcEntry.apply (d : LcDesc) (now : Nat) (l : LcEntry) : LcEntry :=
  if bits d.flags 0 0 = 0 then LcEntry.afterReset else l.configure d now

/-- LC_CONFIG (R500). -/
def lcConfigBody (daddr : Nat) (s : State) : Except Stop State := do
  require (s.initDone = true) .notInitialised
  let bs ← readDesc s daddr 16
  let d := lcDescOfBytes bs
  require (d.legal s.spf = true) .badArg
  pure ({ s with lc := s.lc.modify d.lcid (LcEntry.apply d (s.absSlot d.frame d.slot)) }.ret statusOk)

/-- LC_CONFIG, opcode 0x03 (spec/41_lcp_bsr.md R500). -/
def execLcConfig (daddr : Nat) (s : State) : Host.Outcome State Fault Refusal :=
  .next (finish s (lcConfigBody daddr s))

/-- LC_READ (R502). -/
def lcReadBody (lcid : Nat) (s : State) : Except Stop State := do
  require (s.initDone = true) .notInitialised
  require (lcid ≤ 32) .badArg
  let a := s.port.arg0.toNat
  checkRegion s a 24 4
  pure ({ s with mem := writeBytes s.mem a (lcRecord (s.lcEntry lcid)) }.ret statusOk)

/-- LC_READ, opcode 0x16 (spec/41_lcp_bsr.md R502). -/
def execLcRead (index : Nat) (s : State) : Host.Outcome State Fault Refusal :=
  .next (finish s (lcReadBody index s))

/-! ### The buffer status report (spec/41_lcp_bsr.md R541 to R544) -/

/-- A buffer-size index from its thresholds: 0 for no data, else 1 more than the number of thresholds
below the byte count (R541, log 14). -/
def bufferIndex {n : Nat} (steps : Vector (Option Nat) n) (b : Nat) : Nat :=
  if b = 0 then 0
  else 1 + steps.toList.countP fun o =>
    match o with
    | some t => decide (t < b)
    | none => false

/-- BS5 (R541). -/
def bs5 (b : Nat) : Nat := bufferIndex Config.bs5Steps b

/-- BS8 (R541). -/
def bs8 (b : Nat) : Nat := bufferIndex Config.bs8Steps b

/-- The LCGs with data, ascending (R542). -/
def lcgsWithData (bytes : List Nat) : List Nat := (List.range 8).filter fun g => decide (0 < bytes.getD g 0)

/-- The LCGs with data by `(best[g], g)`, ascending (R544). -/
def lcgsByPriority (bytes best : List Nat) : List Nat :=
  (List.range 256).flatMap fun p => (lcgsWithData bytes).filter fun g => best.getD g 255 == p

/-- The body byte of a short BSR for LCG `g` (R543). -/
def shortBody (bytes : List Nat) (g : Nat) : Byte := BitVec.ofNat 8 (g * 32 + bs5 (bytes.getD g 0))

/-- The bitmap byte of a long BSR: every LCG with data (R543). -/
def lcgBitmap (bytes : List Nat) : Byte := maskOf 8 (lcgsWithData bytes)

/-- The fields of a long BSR for the LCGs of a list (R543). -/
def longFields (bytes : List Nat) (gs : List Nat) : List Byte :=
  gs.map fun g => BitVec.ofNat 8 (bs8 (bytes.getD g 0))

/-- The format code that the number of LCGs with data and the free space select (R542,
spec/30_encoding.md R314). -/
def bsrFormat (space n : Nat) : Nat :=
  if n = 0 then 0
  else if space < 2 then 0
  else if n = 1 then 1
  else if 3 + n ≤ space then 3
  else if 4 ≤ space then 4
  else 2

/-- The BSR MAC CE with its subheader in a format (R543, R544). -/
def bsrBytes (space : Nat) (bytes best : List Nat) : List Byte :=
  let gs := lcgsWithData bytes
  let byPrio := lcgsByPriority bytes best
  match bsrFormat space gs.length with
  | 1 => 0x3D :: (gs.take 1).map (shortBody bytes)
  | 2 => 0x3B :: (byPrio.take 1).map (shortBody bytes)
  | 3 => 0x3E :: BitVec.ofNat 8 (1 + gs.length) :: lcgBitmap bytes :: longFields bytes gs
  | 4 =>
    let m := space - 3
    0x3C :: BitVec.ofNat 8 (1 + m) :: lcgBitmap bytes ::
      longFields bytes (gs.filter fun g => decide (g ∈ byPrio.take m))
  | _ => []

/-! ### BSR_EVAL (spec/41_lcp_bsr.md R540) -/

/-- The checks of a BSR descriptor (R540). -/
def BsrDesc.legal (d : BsrDesc) : Bool := (List.range 8).all fun g => decide
  (((1 ≤ d.lcgBestPrio.getD g 255 ∧ d.lcgBestPrio.getD g 255 ≤ 16) ∨ d.lcgBestPrio.getD g 255 = 255) ∧
   (0 < d.lcgBytes.getD g 0 ↔ d.lcgBestPrio.getD g 255 ≠ 255))

/-- BSR_EVAL (R540). -/
def bsrEvalBody (daddr : Nat) (s : State) : Except Stop State := do
  let bs ← readDesc s daddr 48
  let d := bsrDescOfBytes bs
  require (d.legal = true) .badArg
  checkRegion s d.outAddr (min d.space 11) 1
  let ce := bsrBytes d.space d.lcgBytes d.lcgBestPrio
  require (clearOf (d.outAddr, ce.length) [descRegion daddr 48] = true) .badArg
  let fmt := bsrFormat d.space (lcgsWithData d.lcgBytes).length
  pure ((({ s with mem := writeBytes s.mem d.outAddr ce }.setRes0 (BitVec.ofNat 32 fmt)).setRes1
    (BitVec.ofNat 32 ce.length)).ret statusOk)

/-- BSR_EVAL, opcode 0x15 (spec/41_lcp_bsr.md R540). -/
def execBsrEval (daddr : Nat) (s : State) : Host.Outcome State Fault Refusal :=
  .next (finish s (bsrEvalBody daddr s))

/-! ### The token bucket and the BSR trigger (spec/41_lcp_bsr.md R510 to R513, R522, R550) -/

/-- BjUpdate (R510). -/
def LcEntry.credit (spf now : Nat) (l : LcEntry) : LcEntry :=
  let elapsed := ((now : Int) - l.lastUpdate) % (1024 * spf : Nat)
  { l with
    bj := if l.pbrInf then l.bj else min (l.bj + l.pbrMs * elapsed) l.bucketSize
    lastUpdate := now }

/-- BjUpdate of every configured channel (R520 step 1). -/
def State.creditAll (now : Nat) (s : State) : State :=
  { s with lc := s.lc.map fun l => if l.configured then l.credit s.spf now else l }

/-- Every `Bj` is a 32-bit signed number: no INT_RANGE (R512, log 21). -/
def State.bjInRange (s : State) : Bool := s.lc.all fun l => decide (-2 ^ 31 ≤ l.bj ∧ l.bj < 2 ^ 31)

/-- The configured channels, in LCID order (R520). -/
def State.channels (s : State) : List Nat := (List.range 33).filter fun j => (s.lcEntry j).configured

/-- The eligible channels (R513), in LCID order; their order of service is that of the tiers (R501). -/
def State.eligible (s : State) : List Nat :=
  s.channels.filter fun j => (s.lcEntry j).pbrInf || decide (0 < (s.lcEntry j).bj)

/-- The bucket of channel `j` pays for `k` bytes (R522). -/
def State.charge (j k : Nat) (s : State) : State :=
  { s with lc := s.lc.modify j fun l => { l with bj := if l.pbrInf then l.bj else l.bj - k } }

/-- The totals `lcg_bytes` of a set of answers (R525). -/
def State.lcgBytes (s : State) (st : List (Nat × Nat)) : List Nat :=
  (List.range 8).map fun g => ((st.filter fun x => (s.lcEntry x.1).lcg == g).map Prod.snd).sum

/-- The least priority of the channels of a list, 255 when there is none (R525, R550). -/
def State.bestPriority (s : State) (js : List Nat) : Nat :=
  (js.map fun j => (s.lcEntry j).priority).foldl min 255

/-- The channels of a set of answers that have data. -/
def withData (st : List (Nat × Nat)) : List Nat := (st.filter fun x => decide (0 < x.2)).map Prod.fst

/-- The priorities `lcg_best` of a set of answers (R525). -/
def State.lcgBest (s : State) (st : List (Nat × Nat)) : List Nat :=
  (List.range 8).map fun g => s.bestPriority ((withData st).filter fun j => (s.lcEntry j).lcg == g)

/-- TriggerEval (R550). -/
def State.triggerEval (st : List (Nat × Nat)) (s : State) : State :=
  if withData st ≠ [] ∧ (s.prevLcgData = 0 ∨ s.bestPriority (withData st) < s.prevBestPrio) then
    { s with bsrRegularPending := true }
  else s

/-- TriggerRemember (R550). -/
def State.triggerRemember (bytes best : List Nat) (s : State) : State :=
  { s with prevLcgData := lcgBitmap bytes, prevBestPrio := best.foldl min 255 }

/-! ### The passes (spec/41_lcp_bsr.md R514 to R519) -/

/-- Where an LCP_RUN is in its passes: the state, the free space, the SDU bytes written so far, the
channels whose data-status bit is 1, and the bytes the RLC has returned in this pass. -/
structure LcpProgress where
  st : State
  remain : Nat
  out : List Byte
  ds : List Nat
  served : Nat

/-- The subheader of a MAC SDU of `k` bytes from channel `j` (R519, log 12). -/
def sduHeader (j k : Nat) : List Byte :=
  if k < 256 then [BitVec.ofNat 8 j, BitVec.ofNat 8 k]
  else [BitVec.ofNat 8 (0x40 + j), BitVec.ofNat 8 (k / 256), BitVec.ofNat 8 k]

/-- The cap of a first-pass request (R515). -/
def firstPassCap (b : Build) (l : LcEntry) : Int :=
  match b.firstPassCap with
  | .bj => l.bj
  | .pbr => l.pbrMs

/-- What a channel asks for: R515 in pass 0, R516 in a later pass. -/
def lcpRequest (b : Build) (pass : Nat) (ep : Int) (remain : Nat) (l : LcEntry) : Int :=
  if pass = 0 then
    if l.pbrInf then (remain : Int) - 3 else min (firstPassCap b l) ((remain : Int) - 3)
  else if 1 ≤ ep then min ep ((remain : Int) - 3) else (remain : Int) - 3

/-- What the request of channel `j` does once the RLC has returned `data` (R514, R519, R522). -/
def lcpServe (j : Nat) (data : List Byte) (r : LcpProgress) : LcpProgress :=
  if data = [] then { r with ds := r.ds.filter fun i => decide (i ≠ j) }
  else
    let sdu := sduHeader j data.length ++ data
    let q := (r.st.charge j data.length).rlcStatus j
    { st := q.2
      remain := r.remain - sdu.length
      out := r.out ++ sdu
      ds := if 0 < q.1 then r.ds else r.ds.filter fun i => decide (i ≠ j)
      served := r.served + data.length }

/-- One channel's turn in a pass (R515 to R517). -/
def lcpTurn (pass : Nat) (ep : Int) (r : LcpProgress) (j : Nat) : LcpProgress :=
  if r.remain ≤ 3 then r
  else
    let req := lcpRequest r.st.build pass ep r.remain (r.st.lcEntry j)
    if req ≤ 0 then r
    else
      let q := r.st.rlcData j req.toNat
      lcpServe j q.1 { r with st := q.2 }

/-- One tier: the channels of one priority that have data, in LCID order; `ep` is computed once (R516). -/
def lcpTier (pass : Nat) (r : LcpProgress) (priority : Nat) : LcpProgress :=
  let tier := r.ds.filter fun j => (r.st.lcEntry j).priority == priority
  let nT : Int := tier.length
  tier.foldl (lcpTurn pass (((r.remain : Int) - 3 * nT) / nT)) r

/-- One pass over the tiers, in ascending priority (R501, R516). -/
def lcpPass (pass : Nat) (r : LcpProgress) : LcpProgress := (List.range 256).foldl (lcpTier pass) r

/-- The passes from number `pass` on (R517). Every pass after the first that goes on takes space, so
`buflen + 2` of them are enough (log 19). -/
def lcpPasses : Nat → Nat → LcpProgress → LcpProgress
  | 0, _, r => r
  | fuel + 1, pass, r =>
    if r.remain ≤ 3 ∨ r.ds = [] then r
    else
      let t := lcpPass pass { r with served := 0 }
      if 1 ≤ pass ∧ t.served = 0 then t else lcpPasses fuel (pass + 1) t

/-! ### LCP_RUN (spec/41_lcp_bsr.md R520) -/

/-- The padding subPDU of `r` bytes (R523). -/
def paddingBytes (r : Nat) : List Byte := if r = 0 then [] else 0x3F :: List.replicate (r - 1) 0

/-- The data of step 4 and its abort condition (R513, R514, R518): the channels of the eligible list that
have data. -/
def lcpStart (buflen : Nat) (st : List (Nat × Nat)) (s : State) : LcpProgress :=
  ⟨s, buflen, [], s.eligible.filter fun j => decide (j ∈ withData st), 0⟩

/-- No subheader with a data byte fits although a channel has data (R518). -/
def LcpProgress.aborted (r : LcpProgress) : Bool := decide (r.remain ≤ 3 ∧ r.ds ≠ [])

/-- Steps 2 to 5 of LCP_RUN: the status snapshot, the trigger, and the abort or the passes (R520). -/
def lcpServeAll (d : LcpDesc) (s : State) : LcpProgress × Bool × Bool :=
  let q := s.rlcStatuses s.channels
  let t := q.2.triggerEval q.1
  let r := lcpStart d.buflen q.1 t
  (if r.aborted then { r with st := t.log okLcpAborted d.frame d.slot } else lcpPasses (d.buflen + 2) 0 r,
    r.aborted, t.bsrRegularPending)

/-- Steps 6 to 9 of LCP_RUN: the LCG totals, the BSR, the padding and the trigger memory (R520). The whole
MAC PDU of `buflen` bytes is written at `out_addr` (R523, R524). -/
def lcpFinish (d : LcpDesc) (trig aborted : Bool) (r : LcpProgress) : State :=
  let q := r.st.rlcStatuses r.st.channels
  let bytes := r.st.lcgBytes q.1
  let best := r.st.lcgBest q.1
  let fmt := bsrFormat r.remain (lcgsWithData bytes).length
  let ce := bsrBytes r.remain bytes best
  let t := q.2.triggerRemember bytes best
  let u : State :=
    { t with
      mem := writeBytes t.mem d.outAddr (r.out ++ ce ++ paddingBytes (r.remain - ce.length))
      bsrRegularPending := if fmt = 0 then t.bsrRegularPending else false }
  ((u.setRes0 (BitVec.ofNat 32 r.out.length)).setRes1 (lcpRes1 fmt trig ce.length)).ret
    (if aborted then okLcpAborted else statusOk)

/-- The checks of an LCP descriptor (R520). -/
def LcpDesc.legal (spf : Nat) (d : LcpDesc) : Bool := decide
  (d.reserved = 0 ∧ d.frame ≤ 1023 ∧ d.slot < spf ∧ d.buflen ≠ 0)

/-- LCP_RUN (R520). -/
def lcpRunBody (daddr : Nat) (s : State) : Except Stop State := do
  require (s.initDone = true) .notInitialised
  let bs ← readDesc s daddr 12
  let d := lcpDescOfBytes bs
  require (d.legal s.spf = true) .badArg
  checkRegion s d.outAddr d.buflen 1
  require (clearOf (d.outAddr, d.buflen) [descRegion daddr 12] = true) .badArg
  let t := s.creditAll (s.absSlot d.frame d.slot)
  require (t.bjInRange = true) .intRange
  let p := lcpServeAll d t
  let u := lcpFinish d p.2.2 p.2.1 p.1
  require (u.bjInRange = true) .intRange
  pure u

/-- LCP_RUN, opcode 0x14 (spec/41_lcp_bsr.md R520). -/
def execLcpRun (daddr : Nat) (s : State) : Host.Outcome State Fault Refusal :=
  .next (finish s (lcpRunBody daddr s))

end Sys2Proof.Machine
end

