-- ==== Sys2Proof/Machine/Llr.lean ====
section
/-! DEFINITION. The soft-demapping kernels: LLR_16QAM, LLR_64QAM, LLR_256QAM (spec/45_llr.md). -/

namespace Sys2Proof.Machine

/-- `sat_sub(a, b)`: the exact difference, clamped to an i16 (spec/45_llr.md R900). -/
def satSub (a : BitVec 16) (b : Int) : BitVec 16 :=
  BitVec.ofInt 16 (min (max (a.toInt - b) (-32768)) 32767)

/-- `Abs(a)` (spec/45_llr.md R902). -/
def absI16 (m : AbsMin) (a : BitVec 16) : Int :=
  if a = 0x8000 then
    match m with
    | .wrap => -32768
    | .sat => 32767
    | .exact => 32768
  else |a.toInt|

/-- One step of the recursion of spec/45_llr.md R903. -/
def llrStep (m : AbsMin) (v mag : C16) : C16 :=
  ⟨satSub mag.re (absI16 m v.re), satSub mag.im (absI16 m v.im)⟩

/-- `v_0, v_1, ...` for one RE (spec/45_llr.md R903). -/
def llrChain (m : AbsMin) (v : C16) : List C16 → List C16
  | [] => [v]
  | mag :: rest => v :: llrChain m (llrStep m v mag) rest

/-- The `v_k` of RE `i`: from element `i` of each array only (spec/45_llr.md R904). -/
def llrOfRe (m : AbsMin) (mem : List Host.Cell) (rx : Nat) (mags : List Nat) (i : Nat) : List C16 :=
  llrChain m (readC16 mem (rx + 4 * i)) (mags.map fun a => readC16 mem (a + 4 * i))

/-- The output array: for each RE its `v_k`, `re` then `im`, as i16 values (spec/45_llr.md R903, R904). -/
def llrBytes (m : AbsMin) (mem : List Host.Cell) (rx : Nat) (mags : List Nat) (nbRe : Nat) : List Byte :=
  (List.range nbRe).flatMap fun i => (llrOfRe m mem rx mags i).flatMap c16Bytes

/-- The shared pseudocode of the LLR commands with `nm` magnitude arrays, so `Q = 2 * (nm + 1)`
(spec/45_llr.md R906). -/
def llrBody (nm daddr : Nat) (s : State) : Except Stop State := do
  let bs ← readDesc s daddr 24
  let d := llrDescOfBytes bs
  require (d.nbRe ≤ 65535) .badArg
  checkRegion s d.rxAddr (4 * d.nbRe) 4
  checkRegions s (4 * d.nbRe) 4 (d.magAddr.take nm)
  checkRegion s d.outAddr (2 * (2 * (nm + 1)) * d.nbRe) 2
  require (clearOf (d.outAddr, 2 * (2 * (nm + 1)) * d.nbRe)
    (descRegion daddr 24 :: (d.rxAddr, 4 * d.nbRe) ::
      (d.magAddr.take nm).map fun a => (a, 4 * d.nbRe)) = true) .badArg
  let t : State :=
    { s with
      mem := writeBytes s.mem d.outAddr (llrBytes s.build.absMin s.mem d.rxAddr (d.magAddr.take nm) d.nbRe) }
  pure ((t.setRes0 (BitVec.ofNat 32 (2 * (nm + 1) * d.nbRe))).ret statusOk)

/-- LLR_16QAM, opcode 0x20 (spec/45_llr.md R910). -/
def execLlr16Qam (daddr : Nat) (s : State) : Host.Outcome State Fault Refusal :=
  .next (finish s (llrBody 1 daddr s))

/-- LLR_64QAM, opcode 0x21 (spec/45_llr.md R911). -/
def execLlr64Qam (daddr : Nat) (s : State) : Host.Outcome State Fault Refusal :=
  .next (finish s (llrBody 2 daddr s))

/-- LLR_256QAM, opcode 0x22 (spec/45_llr.md R912). -/
def execLlr256Qam (daddr : Nat) (s : State) : Host.Outcome State Fault Refusal :=
  .next (finish s (llrBody 3 daddr s))

end Sys2Proof.Machine
end

