-- ==== Sys2Proof/Machine/Mapper.lean ====
section
/-! DEFINITION. The resource-element mapper: the PUSCH PDU checks, the parameter bundle and MAP_PUSCH
(spec/43_re_mapper.md). -/

namespace Sys2Proof.Machine

/-! ### DMRS ports (spec/43_re_mapper.md R731) and the PDU checks (R701) -/

/-- The CDM group of a DMRS port (R731). -/
def cdmGroup (dtype p : Nat) : Nat := if dtype = 1 then p / 2 % 2 else p / 2 % 3

/-- `wf(p, 1)` is -1 (R731). -/
def wfNegative (p : Nat) : Bool := p % 2 == 1

/-- `wt(p, 1)` is -1 (R731). -/
def wtNegative (dtype p : Nat) : Bool := if dtype = 1 then decide (4 ≤ p) else decide (6 ≤ p)

/-- A list splits into pairs `(l, l + 1)` (R701 check 6, R732). -/
def pairsOk : List Nat → Bool
  | [] => true
  | [_] => false
  | a :: b :: rest => b == a + 1 && pairsOk rest

/-- Checks 1 to 3 of R701: the bit map, the frequency and the time allocation. -/
def Pdu.allocLegal (c : CfgRegs) (p : Pdu) : Bool := decide
  (p.reserved = 0 ∧ p.pduBitMap.toNat < 16 ∧ p.hasData = true ∧ p.transformPrecoding ≤ 1 ∧
   (p.hasDftSOfdm = true ↔ p.transformPrecoding = 1) ∧
   1 ≤ p.bwpSize ∧ p.bwpStart + p.bwpSize ≤ c.nRbCarrier ∧ 1 ≤ p.rbSize ∧
   p.rbStart + p.rbSize ≤ p.bwpSize ∧ 1 ≤ p.nrOfSymbols ∧ p.startSymbol + p.nrOfSymbols ≤ 14)

/-- Symbol `l` is in the time allocation. -/
def Pdu.inAlloc (p : Pdu) (l : Nat) : Bool :=
  decide (p.startSymbol ≤ l ∧ l < p.startSymbol + p.nrOfSymbols)

/-- Checks 4 to 6 of R701: layers, DMRS configuration, ports and symbols. -/
def Pdu.dmrsLegal (p : Pdu) : Bool := decide
  (1 ≤ p.nLayers ∧ p.nLayers ≤ 4 ∧ (p.dmrsConfigType = 1 ∨ p.dmrsConfigType = 2) ∧
   1 ≤ p.numDmrsCdmGrpsNoData ∧ p.numDmrsCdmGrpsNoData ≤ p.dmrsConfigType + 1 ∧
   popcount p.dmrsPorts = p.nLayers ∧ p.dmrsDouble ≤ 1 ∧
   p.ulDmrsSymbPos.toNat < 2 ^ 14 ∧ p.ulDmrsSymbPos ≠ 0) &&
  ((setBits p.dmrsPorts).all fun q =>
    decide (q < 4 * (p.dmrsConfigType + 1) ∧ cdmGroup p.dmrsConfigType q < p.numDmrsCdmGrpsNoData)) &&
  (setBits p.ulDmrsSymbPos).all p.inAlloc && (p.dmrsDouble == 0 || pairsOk (setBits p.ulDmrsSymbPos))

/-- Check 7 of R701: the PTRS fields. -/
def Pdu.ptrsLegal (p : Pdu) : Bool := decide
  (p.transformPrecoding = 0 ∧ (p.ptrsK = 2 ∨ p.ptrsK = 4) ∧ (p.ptrsL = 1 ∨ p.ptrsL = 2 ∨ p.ptrsL = 4) ∧
   p.ptrsReOffset ≤ 3 ∧ p.ptrsLayer < p.nLayers ∧ p.ptrsSymbPos ≠ 0 ∧
   p.ptrsSymbPos &&& p.ulDmrsSymbPos = 0) && (setBits p.ptrsSymbPos).all p.inAlloc

/-- Check 8 of R701: what transform precoding allows. -/
def Pdu.tpLegal (p : Pdu) : Bool := decide
  (p.transformPrecoding = 1 → p.dmrsConfigType = 1 ∧ p.numDmrsCdmGrpsNoData = 2 ∧ p.nLayers = 1)

/-- The PUSCH PDU passes the checks of R701. -/
def Pdu.legal (c : CfgRegs) (p : Pdu) : Bool :=
  p.allocLegal c && p.dmrsLegal && (!p.hasPtrs || p.ptrsLegal) && p.tpLegal

/-- The PUSCH PDU descriptor at a DMEM address (spec/30_encoding.md R331). -/
def readPdu (s : State) (a : Nat) : Pdu := pduOfBytes (readBytes s.mem a 64)

/-! ### The parameter bundle (spec/43_re_mapper.md R700, R710, R740) -/

/-- `KREF(dtype, p, offset)` of R740, its ports reduced by R742. -/
def kRef (dtype p offset : Nat) : Nat :=
  if dtype = 1 then
    ([[0, 2, 6, 8], [2, 4, 8, 10], [1, 3, 7, 9], [3, 5, 9, 11]].getD (p % 4) []).getD offset 0
  else
    ([[0, 1, 6, 7], [1, 6, 7, 0], [2, 3, 8, 9], [3, 8, 9, 2], [4, 5, 10, 11], [5, 10, 11, 4]].getD
      (p % 6) []).getD offset 0

/-- The parameter bundle of one PUSCH PDU (R700). -/
structure Bundle where
  fft : Nat
  startSc : Nat
  rbSize : Nat
  startSymbol : Nat
  len : Nat
  layers : Nat
  ports : List Nat
  dtype : Nat
  cdm : Nat
  double : Bool
  dm : List Nat
  pt : List Nat
  ptrsK : Nat
  kRefRb : Nat
  kRefRe : Nat
  ptrsLayer : Nat
deriving DecidableEq, Repr

/-- `start_sc` (R700, R710). -/
def startSc (c : CfgRegs) (p : Pdu) : Nat :=
  (c.firstCarrierOffset + 12 * (p.bwpStart + p.rbStart)) % c.fftSize

/-- `k_ref_RB` (R740). -/
def kRefRb (p : Pdu) : Nat :=
  if p.rbSize % p.ptrsK = 0 then p.rnti % p.ptrsK else p.rnti % (p.rbSize % p.ptrsK)

/-- The bundle of a PUSCH PDU under a configuration (R700, R704, R743). -/
def bundleOf (c : CfgRegs) (p : Pdu) : Bundle where
  fft := c.fftSize
  startSc := startSc c p
  rbSize := p.rbSize
  startSymbol := p.startSymbol
  len := p.nrOfSymbols
  layers := p.nLayers
  ports := setBits p.dmrsPorts
  dtype := p.dmrsConfigType
  cdm := p.numDmrsCdmGrpsNoData
  double := p.dmrsDouble == 1
  dm := setBits p.ulDmrsSymbPos
  pt := if p.hasPtrs then setBits p.ptrsSymbPos else []
  ptrsK := p.ptrsK
  kRefRb := kRefRb p
  kRefRe := kRef p.dmrsConfigType ((setBits p.dmrsPorts).getD p.ptrsLayer 0) p.ptrsReOffset
  ptrsLayer := p.ptrsLayer

/-- `N_sc` (R700). -/
def Bundle.nSc (b : Bundle) : Nat := 12 * b.rbSize

/-- `J`, the DMRS values of one DMRS symbol (R700). -/
def Bundle.j (b : Bundle) : Nat := if b.dtype = 1 then 6 * b.rbSize else 4 * b.rbSize

/-- `N_pt`, the PTRS RBs (R740). -/
def Bundle.nPt (b : Bundle) : Nat := ceilDiv (b.rbSize - b.kRefRb) b.ptrsK

/-- `idx(k)` (R710). -/
def Bundle.idx (b : Bundle) (k : Nat) : Nat := (b.startSc + k) % b.fft

/-- The data REs of symbol `l` on one layer (R752). -/
def Bundle.dataResOf (b : Bundle) (l : Nat) : Nat :=
  if l ∈ b.dm then
    if b.dtype = 1 then b.nSc * (2 - b.cdm) / 2 else b.nSc * (3 - b.cdm) / 3
  else if l ∈ b.pt then b.nSc - b.nPt
  else b.nSc

/-- `N_data` (R752). -/
def Bundle.nData (b : Bundle) : Nat := ((List.range' b.startSymbol b.len).map b.dataResOf).sum

/-! ### The value of one RE (spec/43_re_mapper.md R730, R741, R750) -/

/-- `Neg` (R722). -/
def negI16 (m : NegMin) (a : BitVec 16) : BitVec 16 :=
  if a = 0x8000 then
    match m with
    | .wrap => 0x8000
    | .sat => 0x7FFF
  else -a

/-- `Scale(w, x)` with `w = -1` when `neg` (R734). -/
def scaleC16 (m : NegMin) (neg : Bool) (x : C16) : C16 :=
  if neg then ⟨negI16 m x.re, negI16 m x.im⟩ else x

/-- `g(k)`, the CDM group of an RE of a DMRS symbol (R730). -/
def reGroup (dtype k : Nat) : Nat := if dtype = 1 then k % 12 % 2 else k % 12 % 6 / 2

/-- `k'(k)`, its in-group frequency index (R730). -/
def reFreq (dtype k : Nat) : Nat := if dtype = 1 then k % 12 % 4 / 2 else k % 12 % 2

/-- `j(k)`, its DMRS sequence index (R730). -/
def reSeq (dtype k : Nat) : Nat :=
  if dtype = 1 then 6 * (k / 12) + k % 12 / 2 else 4 * (k / 12) + 2 * (k % 12 / 6) + k % 12 % 2

/-- The ordinal of a symbol among the symbols of an ascending list (R730, R741). -/
def ordinal (l : Nat) (symbols : List Nat) : Nat := symbols.countP fun m => decide (m < l)

/-- The Walsh code of port `p` at RE `k` of the DMRS symbol of ordinal `q` is -1 (R730 to R732). -/
def Bundle.walshNegative (b : Bundle) (p k q : Nat) : Bool :=
  xor (wfNegative p && reFreq b.dtype k == 1) (wtNegative b.dtype p && b.double && q % 2 == 1)

/-- RE `k` of a PTRS symbol is a PTRS RE (R741). -/
def Bundle.isPtrsRe (b : Bundle) (k : Nat) : Bool :=
  decide (b.kRefRb ≤ k / 12 ∧ (k / 12 - b.kRefRb) % b.ptrsK = 0 ∧ k % 12 = b.kRefRe)

/-- RE `k` of symbol `l` takes a data value of each layer (R730, R741, R750). -/
def Bundle.isDataRe (b : Bundle) (l k : Nat) : Bool :=
  if l ∈ b.dm then decide (b.cdm ≤ reGroup b.dtype k)
  else if l ∈ b.pt then !b.isPtrsRe k
  else true

/-- The streams MAP_PUSCH reads, as values: the data of each layer, the DMRS and the PTRS stream. -/
structure Streams where
  data : Nat → Nat → C16
  dmrs : Nat → C16
  ptrs : Nat → C16

/-- The value of layer `v` at RE `k` of symbol `l`, where `next` is the number of data values its layer has
taken before (R730, R741, R750, R751). -/
def Bundle.value (b : Bundle) (m : NegMin) (t : Streams) (l k v next : Nat) : C16 :=
  if b.isDataRe l k then t.data v next
  else if l ∈ b.dm then
    let p := b.ports.getD v 0
    if reGroup b.dtype k = cdmGroup b.dtype p then
      scaleC16 m (b.walshNegative p k (ordinal l b.dm)) (t.dmrs (ordinal l b.dm * b.j + reSeq b.dtype k))
    else ⟨0, 0⟩
  else if v = b.ptrsLayer then t.ptrs (ordinal l b.pt * b.nPt + (k / 12 - b.kRefRb) / b.ptrsK)
  else ⟨0, 0⟩

/-- The allocation's REs `(l, k)` in the order MAP_PUSCH maps them (R703). -/
def Bundle.res (b : Bundle) : List (Nat × Nat) :=
  (List.range' b.startSymbol b.len).flatMap fun l => (List.range b.nSc).map fun k => (l, k)

/-- The values written, as `(layer, symbol, k, value)`, from a list of REs on; `next` data values of each
layer have been taken before. The data REs are the same in every layer (R751). -/
def Bundle.cells (b : Bundle) (m : NegMin) (t : Streams) :
    List (Nat × Nat) → Nat → List (Nat × Nat × Nat × C16)
  | [], _ => []
  | (l, k) :: rest, next =>
    ((List.range b.layers).map fun v => (v, l, k, b.value m t l k v next)) ++
      b.cells m t rest (if b.isDataRe l k then next + 1 else next)

/-! ### MAP_PUSCH (spec/43_re_mapper.md R720) -/

/-- The streams at the addresses of a map descriptor. -/
def streamsOf (s : State) (d : MapDesc) : Streams where
  data := fun v i => readC16 s.mem (d.dataAddr.getD v 0 + 4 * i)
  dmrs := fun i => readC16 s.mem (d.dmrsAddr + 4 * i)
  ptrs := fun i => readC16 s.mem (d.ptrsAddr + 4 * i)

/-- The addresses and values MAP_PUSCH writes, in order (R714, R720). -/
def mapWrites (b : Bundle) (m : NegMin) (t : Streams) (grid : Nat) : List (Nat × C16) :=
  (b.cells m t b.res 0).map fun w => (gridAddr grid b.fft w.1 w.2.1 (b.idx w.2.2.1), w.2.2.2)

/-- The PTRS address of a descriptor, read only when there are PTRS symbols (R720). -/
def ptrsAddrs (b : Bundle) (d : MapDesc) : List Nat := if b.pt = [] then [] else [d.ptrsAddr]

/-- The regions MAP_PUSCH reads. -/
def mapInputs (daddr : Nat) (d : MapDesc) (b : Bundle) : List (Nat × Nat) :=
  descRegion daddr 36 :: (d.pduAddr, 64) ::
    (((d.dataAddr.take b.layers).map fun a => (a, 4 * d.dataLen)) ++
     (d.dmrsAddr, 4 * (b.dm.length * b.j)) ::
     (ptrsAddrs b d).map fun a => (a, 4 * (b.pt.length * b.nPt)))

/-- The map descriptor that DADDR names in a state. -/
def mapDescAt (s : State) (daddr : Nat) : MapDesc := mapDescOfBytes (readBytes s.mem (4 * daddr) 36)

/-- The PUSCH PDU a map descriptor names. -/
def mapPduAt (s : State) (daddr : Nat) : Pdu := readPdu s (mapDescAt s daddr).pduAddr

/-- The parameter bundle of a MAP_PUSCH. -/
def mapBundleAt (s : State) (daddr : Nat) : Bundle := bundleOf s.cfg (mapPduAt s daddr)

/-- MAP_PUSCH (R720). -/
def mapPuschBody (daddr : Nat) (s : State) : Except Stop State := do
  require (s.cfgValid = true) .notInitialised
  let bs ← readDesc s daddr 36
  let d := mapDescOfBytes bs
  checkRegion s d.pduAddr 64 4
  let p := readPdu s d.pduAddr
  require (p.legal s.cfg = true) .badPdu
  let b := bundleOf s.cfg p
  checkRegions s (4 * d.dataLen) 4 (d.dataAddr.take b.layers)
  checkRegion s d.dmrsAddr (4 * (b.dm.length * b.j)) 4
  checkRegions s (4 * (b.pt.length * b.nPt)) 4 (ptrsAddrs b d)
  checkRegion s d.gridAddr (4 * (b.layers * 14 * b.fft)) 4
  require (clearOf (d.gridAddr, 4 * (b.layers * 14 * b.fft)) (mapInputs daddr d b) = true) .badArg
  require (d.dataLen = b.nData) .dataLength
  let t : State := { s with mem := writeC16s s.mem (mapWrites b s.build.negMin (streamsOf s d) d.gridAddr) }
  pure (((t.setRes0 (BitVec.ofNat 32 b.nData)).setRes1 (BitVec.ofNat 32 (b.nSc * b.len))).ret statusOk)

/-- MAP_PUSCH, opcode 0x1A (spec/43_re_mapper.md R720). -/
def execMapPusch (daddr : Nat) (s : State) : Host.Outcome State Fault Refusal :=
  .next (finish s (mapPuschBody daddr s))

end Sys2Proof.Machine
end

