-- ==== Sys2Proof/Machine/Precoding.lean ====
section
/-! DEFINITION. Layer mapping, transform precoding and precoding: LAYER_MAP, TP_DFT, PRECODE
(spec/44_precoding_transform.md). -/

namespace Sys2Proof.Machine

/-! ### LAYER_MAP (spec/44_precoding_transform.md R810) -/

/-- No two regions of a list overlap. -/
def disjointAll : List (Nat × Nat) → Bool
  | [] => true
  | x :: rest => clearOf x rest && disjointAll rest

/-- The regions of the layers in use, each of `n` symbols. -/
def layerRegions (d : LayerMapDesc) : List (Nat × Nat) :=
  (d.outAddr.take d.nLayers).map fun a => (a, 4 * (d.nIn / d.nLayers))

/-- The addresses and values LAYER_MAP writes: symbol `i` of layer `v` is input symbol `nu * i + v` (R810). -/
def layerWrites (m : List Host.Cell) (d : LayerMapDesc) : List (Nat × C16) :=
  (List.range (d.nIn / d.nLayers)).flatMap fun i => (List.range d.nLayers).map fun v =>
    (d.outAddr.getD v 0 + 4 * i, readC16 m (d.inAddr + 4 * (d.nLayers * i + v)))

/-- The checks that are left of CheckRegion for a region of 0 bytes of LAYER_MAP, for each address of a list, in its
order: bits 31:26 are 0 (spec/20_memory.md R201), then the alignment. Any 26-bit address aligned to 4 passes
(R810, log 27). -/
def checkAddresses : List Nat → Except Stop Unit
  | [] => .ok ()
  | a :: rest => do
    require (a < 2 ^ 26) .dmemRange
    require (a % 4 = 0) .misaligned
    checkAddresses rest

/-- CheckRegion of the input and of the layers in use, in that order. With `n_in = 0` no address is compared with
DMEM_SIZE: the corner case of R810 against R1012 (log 27). -/
def checkLayerRegions (s : State) (d : LayerMapDesc) : Except Stop Unit := do
  if d.nIn = 0 then checkAddresses (d.inAddr :: d.outAddr.take d.nLayers)
  else
    checkRegion s d.inAddr (4 * d.nIn) 4
    checkRegions s (4 * (d.nIn / d.nLayers)) 4 (d.outAddr.take d.nLayers)

/-- LAYER_MAP (R810). -/
def layerMapBody (daddr : Nat) (s : State) : Except Stop State := do
  let bs ← readDesc s daddr 28
  let d := layerMapDescOfBytes bs
  require (d.reserved = 0 ∧ 1 ≤ d.nLayers ∧ d.nLayers ≤ 4) .badArg
  require (d.nIn % d.nLayers = 0) .dataLength
  checkLayerRegions s d
  require (disjointAll (layerRegions d) = true ∧
    ((layerRegions d).all fun x => clearOf x [(d.inAddr, 4 * d.nIn), descRegion daddr 28]) = true) .badArg
  let t : State := { s with mem := writeC16s s.mem (layerWrites s.mem d) }
  pure ((t.setRes0 (BitVec.ofNat 32 (d.nIn / d.nLayers))).ret statusOk)

/-- LAYER_MAP, opcode 0x18 (spec/44_precoding_transform.md R810). -/
def execLayerMap (daddr : Nat) (s : State) : Host.Outcome State Fault Refusal :=
  .next (finish s (layerMapBody daddr s))

/-! ### TP_DFT (spec/44_precoding_transform.md R820, R821) -/

/-- The addresses and values TP_DFT writes: each block of `m` inputs gives its transform, all inputs read
before any output is written (R820). -/
def dftWrites (mem : List Host.Cell) (inAddr outAddr m blocks : Nat) : List (Nat × C16) :=
  (List.range blocks).flatMap fun b =>
    let x := readC16s mem (inAddr + 4 * (b * m)) m
    (List.range m).map fun k => (outAddr + 4 * (b * m + k), Config.dftNum m x k)

/-- TP_DFT (R820); no prerequisite flag (spec/60_exceptions.md R1011, log 8). -/
def tpDftBody (daddr : Nat) (s : State) : Except Stop State := do
  let bs ← readDesc s daddr 16
  let t := tpDescOfBytes bs
  checkRegion s t.pduAddr 64 4
  let p := readPdu s t.pduAddr
  require (p.legal s.cfg = true ∧ p.transformPrecoding = 1) .badPdu
  let m := 12 * p.rbSize
  require (smooth235 m = true) .dftSize
  require (t.n = m * (p.nrOfSymbols - popcount p.ulDmrsSymbPos)) .dataLength
  checkRegion s t.inAddr (4 * t.n) 4
  checkRegion s t.outAddr (4 * t.n) 4
  require ((t.inAddr = t.outAddr ∨ overlaps (t.outAddr, 4 * t.n) (t.inAddr, 4 * t.n) = false) ∧
    clearOf (t.outAddr, 4 * t.n) [descRegion daddr 16, (t.pduAddr, 64)] = true) .badArg
  let u : State := { s with mem := writeC16s s.mem (dftWrites s.mem t.inAddr t.outAddr m (t.n / m)) }
  pure (((u.setRes0 (BitVec.ofNat 32 (t.n / m))).setRes1 (BitVec.ofNat 32 m)).ret statusOk)

/-- TP_DFT, opcode 0x19 (spec/44_precoding_transform.md R820). -/
def execTpDft (daddr : Nat) (s : State) : Host.Outcome State Fault Refusal :=
  .next (finish s (tpDftBody daddr s))

/-! ### PRECODE (spec/44_precoding_transform.md R831 to R833) -/

/-- The value of antenna `a` from the layer values at one RE: the pass-through of TPMI 0 (R831), else
PRECODE_NUM of the matrix row (R832). -/
def antennaValue (w : Option WMatrix) (a : Nat) (y : List C16) : C16 :=
  match w with
  | none => y.getD a ⟨0, 0⟩
  | some m => Config.precodeNum (m.row y.length a) y

/-- The matrix of a PDU: `none` for TPMI 0 (R831). -/
def pduMatrix (p : Pdu) : Option WMatrix :=
  if p.tpmi = 0 then none else wLookup p.nAnt p.nLayers p.tpmi

/-- The layer values at RE `k` of symbol `l` (R833). -/
def layerValues (m : List Host.Cell) (b : Bundle) (base l k : Nat) : List C16 :=
  (List.range b.layers).map fun v => readC16 m (gridAddr base b.fft v l (b.idx k))

/-- The addresses and values PRECODE writes, in order (R833). -/
def precodeWrites (m : List Host.Cell) (b : Bundle) (w : Option WMatrix) (nAnt layerGrid antGrid : Nat) :
    List (Nat × C16) :=
  b.res.flatMap fun x =>
    let y := layerValues m b layerGrid x.1 x.2
    (List.range nAnt).map fun a => (gridAddr antGrid b.fft a x.1 (b.idx x.2), antennaValue w a y)

/-- PRECODE (R833). R833 compares the two whole grids and R216 counts the bytes read or written; neither says
how far the antenna grid extends against the descriptor and the PDU. DESIGN CHOICE (unsafe, log 7): the whole
antenna grid, so that a descriptor or PDU in any byte of it, also one PRECODE never writes, raises BAD_ARG. -/
def precodeBody (daddr : Nat) (s : State) : Except Stop State := do
  require (s.cfgValid = true) .notInitialised
  let bs ← readDesc s daddr 12
  let c := precodeDescOfBytes bs
  checkRegion s c.pduAddr 64 4
  let p := readPdu s c.pduAddr
  require (p.legal s.cfg = true) .badPdu
  require (p.nAnt = s.cfg.nAnt ∧ p.nLayers ≤ p.nAnt) .badPdu
  require (p.tpmi ≠ 0 → (wLookup p.nAnt p.nLayers p.tpmi).isSome = true) .badPdu
  let b := bundleOf s.cfg p
  checkRegion s c.layerGridAddr (4 * (b.layers * 14 * b.fft)) 4
  checkRegion s c.antGridAddr (4 * (p.nAnt * 14 * b.fft)) 4
  require (clearOf (c.antGridAddr, 4 * (p.nAnt * 14 * b.fft))
    [(c.layerGridAddr, 4 * (b.layers * 14 * b.fft)), descRegion daddr 12, (c.pduAddr, 64)] = true) .badArg
  let t : State :=
    { s with mem := writeC16s s.mem (precodeWrites s.mem b (pduMatrix p) p.nAnt c.layerGridAddr c.antGridAddr) }
  pure (((t.setRes0 (BitVec.ofNat 32 p.nAnt)).setRes1 (BitVec.ofNat 32 (b.nSc * b.len))).ret statusOk)

/-- PRECODE, opcode 0x1B (spec/44_precoding_transform.md R833). -/
def execPrecode (daddr : Nat) (s : State) : Host.Outcome State Fault Refusal :=
  .next (finish s (precodeBody daddr s))

end Sys2Proof.Machine
end

