-- ==== Sys2Proof/Machine/Dispatch.lean ====
section
/-! DEFINITION. One arm for each command: its meaning. -/

namespace Sys2Proof.Machine

def exec (i : Instr) (s : State) : Host.Outcome State Fault Refusal :=
  match i with
  | .cfgWrite daddr => Sys2Proof.Machine.execCfgWrite daddr s
  | .init => Sys2Proof.Machine.execInit s
  | .lcConfig daddr => Sys2Proof.Machine.execLcConfig daddr s
  | .taExpiry => Sys2Proof.Machine.execTaExpiry s
  | .ulLockGet ptype frame slot => Sys2Proof.Machine.execUlLockGet ptype frame slot s
  | .ulRelease clr handle => Sys2Proof.Machine.execUlRelease clr handle s
  | .ulRemoveLast handle => Sys2Proof.Machine.execUlRemoveLast handle s
  | .ulIterGet frame slot => Sys2Proof.Machine.execUlIterGet frame slot s
  | .ulPduWrite handle => Sys2Proof.Machine.execUlPduWrite handle s
  | .ulPduRead handle => Sys2Proof.Machine.execUlPduRead handle s
  | .grantTarget daddr => Sys2Proof.Machine.execGrantTarget daddr s
  | .puschBuild daddr => Sys2Proof.Machine.execPuschBuild daddr s
  | .harqRead index => Sys2Proof.Machine.execHarqRead index s
  | .lcpRun daddr => Sys2Proof.Machine.execLcpRun daddr s
  | .bsrEval daddr => Sys2Proof.Machine.execBsrEval daddr s
  | .lcRead index => Sys2Proof.Machine.execLcRead index s
  | .layerMap daddr => Sys2Proof.Machine.execLayerMap daddr s
  | .tpDft daddr => Sys2Proof.Machine.execTpDft daddr s
  | .mapPusch daddr => Sys2Proof.Machine.execMapPusch daddr s
  | .precode daddr => Sys2Proof.Machine.execPrecode daddr s
  | .llr16Qam daddr => Sys2Proof.Machine.execLlr16Qam daddr s
  | .llr64Qam daddr => Sys2Proof.Machine.execLlr64Qam daddr s
  | .llr256Qam daddr => Sys2Proof.Machine.execLlr256Qam daddr s

end Sys2Proof.Machine
end

