-- ==== Sys2Proof/Machine/Races.lean ====
section
/-! DEFINITION. The DMEM bytes a command reads and writes, and how a step reads racing bytes
(spec/20_memory.md R216, R223, log 6). Safety.lean says which bytes race in a run. -/

namespace Sys2Proof.Machine

/-! ### What a command accesses -/

/-- The regions of four bytes at the addresses of a list of sample writes. -/
def sampleRegions (l : List (Nat × C16)) : List (Nat × Nat) := l.map fun w => (w.1, 4)

/-- The regions of an LLR command with `nm` magnitude arrays: read, then written (spec/45_llr.md R906). -/
def llrRegions (nm daddr : Nat) (s : State) : List (Nat × Nat) × List (Nat × Nat) :=
  let d := llrDescOfBytes (readBytes s.mem (4 * daddr) 24)
  (descRegion daddr 24 :: (d.rxAddr, 4 * d.nbRe) :: (d.magAddr.take nm).map fun a => (a, 4 * d.nbRe),
    [(d.outAddr, 2 * (2 * (nm + 1)) * d.nbRe)])

/-- The regions of LAYER_MAP: read, then written (spec/44_precoding_transform.md R810). -/
def layerMapRegions (daddr : Nat) (s : State) : List (Nat × Nat) × List (Nat × Nat) :=
  let d := layerMapDescOfBytes (readBytes s.mem (4 * daddr) 28)
  ([descRegion daddr 28, (d.inAddr, 4 * d.nIn)], layerRegions d)

/-- The regions of TP_DFT: read, then written (spec/44_precoding_transform.md R820). -/
def tpDftRegions (daddr : Nat) (s : State) : List (Nat × Nat) × List (Nat × Nat) :=
  let t := tpDescOfBytes (readBytes s.mem (4 * daddr) 16)
  ([descRegion daddr 16, (t.pduAddr, 64), (t.inAddr, 4 * t.n)], [(t.outAddr, 4 * t.n)])

/-- The regions of MAP_PUSCH: read, then written, the REs of the allocation (spec/43_re_mapper.md R714,
R720). -/
def mapPuschRegions (daddr : Nat) (s : State) : List (Nat × Nat) × List (Nat × Nat) :=
  let d := mapDescAt s daddr
  let b := mapBundleAt s daddr
  (mapInputs daddr d b, sampleRegions (mapWrites b s.build.negMin (streamsOf s d) d.gridAddr))

/-- The regions of PRECODE: read, then written, the REs of the allocation
(spec/44_precoding_transform.md R833). -/
def precodeRegions (daddr : Nat) (s : State) : List (Nat × Nat) × List (Nat × Nat) :=
  let c := precodeDescOfBytes (readBytes s.mem (4 * daddr) 12)
  let p := readPdu s c.pduAddr
  let b := bundleOf s.cfg p
  (descRegion daddr 12 :: (c.pduAddr, 64) :: b.res.flatMap fun x => (List.range b.layers).map fun v =>
      (gridAddr c.layerGridAddr b.fft v x.1 (b.idx x.2), 4),
    sampleRegions (precodeWrites s.mem b (pduMatrix p) p.nAnt c.layerGridAddr c.antGridAddr))

/-- The DMEM regions a command reads and those it writes, each an address and a length, when it ends
normally (spec/20_memory.md R216). -/
def accesses (s : State) : Instr → List (Nat × Nat) × List (Nat × Nat)
  | .cfgWrite daddr => ([descRegion daddr 128], [])
  | .init => ([], [])
  | .lcConfig daddr => ([descRegion daddr 16], [])
  | .taExpiry => ([], [])
  | .ulLockGet _ _ _ => ([], [])
  | .ulRelease _ _ => ([], [])
  | .ulRemoveLast _ => ([], [])
  | .ulIterGet _ _ => ([], [])
  | .ulPduWrite _ => ([(s.port.arg0.toNat, 64)], [])
  | .ulPduRead _ => ([], [(s.port.arg0.toNat, 64)])
  | .grantTarget daddr => ([descRegion daddr 32], [])
  | .puschBuild daddr => ([descRegion daddr 32], [])
  | .harqRead _ => ([], [(s.port.arg0.toNat, 12)])
  | .lcpRun daddr =>
    let d := lcpDescOfBytes (readBytes s.mem (4 * daddr) 12)
    ([descRegion daddr 12], [(d.outAddr, d.buflen)])
  | .bsrEval daddr =>
    let d := bsrDescOfBytes (readBytes s.mem (4 * daddr) 48)
    ([descRegion daddr 48], [(d.outAddr, (bsrBytes d.space d.lcgBytes d.lcgBestPrio).length)])
  | .lcRead _ => ([], [(s.port.arg0.toNat, 24)])
  | .layerMap daddr => layerMapRegions daddr s
  | .tpDft daddr => tpDftRegions daddr s
  | .mapPusch daddr => mapPuschRegions daddr s
  | .precode daddr => precodeRegions daddr s
  | .llr16Qam daddr => llrRegions 1 daddr s
  | .llr64Qam daddr => llrRegions 2 daddr s
  | .llr256Qam daddr => llrRegions 3 daddr s

/-- The prerequisite flag of a command is set (spec/60_exceptions.md R1011). -/
def prerequisite (s : State) : Instr → Bool
  | .cfgWrite _ => true
  | .init => s.cfgValid
  | .lcConfig _ => s.initDone
  | .taExpiry => s.initDone
  | .ulLockGet _ _ _ => s.initDone
  | .ulRelease _ _ => s.initDone
  | .ulRemoveLast _ => s.initDone
  | .ulIterGet _ _ => s.initDone
  | .ulPduWrite _ => s.initDone
  | .ulPduRead _ => s.initDone
  | .grantTarget _ => s.initDone
  | .puschBuild _ => s.initDone
  | .harqRead _ => s.initDone
  | .lcpRun _ => s.initDone
  | .bsrEval _ => true
  | .lcRead _ => s.initDone
  | .layerMap _ => true
  | .tpDft _ => true
  | .mapPusch _ => s.cfgValid
  | .precode _ => s.cfgValid
  | .llr16Qam _ => true
  | .llr64Qam _ => true
  | .llr256Qam _ => true

/-- The regions a command that faults has read by then: its descriptor, once the flag it needs and the region
of the descriptor are right. -/
def descReads (daddr n : Nat) (s : State) : List (Nat × Nat) :=
  if RegionOk s (4 * daddr) n 4 then [descRegion daddr n] else []

/-- The same where the first four bytes of the descriptor name a PUSCH PDU, read once its region is right. -/
def pduReads (daddr n : Nat) (s : State) : List (Nat × Nat) :=
  let a := memRead s.mem (4 * daddr) 4
  if RegionOk s (4 * daddr) n 4 ∧ RegionOk s a 64 4 then [descRegion daddr n, (a, 64)] else descReads daddr n s

/-- The DMEM regions a command has read when it faults: every check reads the descriptor and the PUSCH PDU only,
and a fault comes before any other access (spec/60_exceptions.md R1010, R1020, spec/20_memory.md R201). -/
def faultReads (s : State) (i : Instr) : List (Nat × Nat) :=
  if prerequisite s i = false then []
  else
    match i with
    | .cfgWrite daddr => descReads daddr 128 s
    | .init => []
    | .lcConfig daddr => descReads daddr 16 s
    | .taExpiry => []
    | .ulLockGet _ _ _ => []
    | .ulRelease _ _ => []
    | .ulRemoveLast _ => []
    | .ulIterGet _ _ => []
    | .ulPduWrite _ => []
    | .ulPduRead _ => []
    | .grantTarget daddr => descReads daddr 32 s
    | .puschBuild daddr => descReads daddr 32 s
    | .harqRead _ => []
    | .lcpRun daddr => descReads daddr 12 s
    | .bsrEval daddr => descReads daddr 48 s
    | .lcRead _ => []
    | .layerMap daddr => descReads daddr 28 s
    | .tpDft daddr => pduReads daddr 16 s
    | .mapPusch daddr => pduReads daddr 36 s
    | .precode daddr => pduReads daddr 12 s
    | .llr16Qam daddr => descReads daddr 24 s
    | .llr64Qam daddr => descReads daddr 24 s
    | .llr256Qam daddr => descReads daddr 24 s

/-- Byte `a` lies in one of the regions of a list. -/
def inRegions (l : List (Nat × Nat)) (a : Nat) : Bool := l.any fun x => decide (x.1 ≤ a ∧ a < x.1 + x.2)

/-- The command of the issuing port that ended normally in its step from `s` to `t`: none where it faulted or
is held (spec/60_exceptions.md R1000). -/
def endedCommand (s t : State) : Option Instr :=
  if t.halted = true ∨ t.port.busy = true then none else s.fetch.toOption

/-- The regions that the issuing port's command read and wrote in its step from `s` to `t`: a command that
faulted has read what it checked and written nothing, a held one has accessed nothing
(spec/60_exceptions.md R1020, R1030, spec/20_memory.md R220). -/
def stepAccesses (s t : State) : List (Nat × Nat) × List (Nat × Nat) :=
  match s.fetch with
  | .error _ => ([], [])
  | .ok i =>
    if t.halted = true then (faultReads s i, [])
    else if t.port.busy = true then ([], [])
    else accesses s i

/-! ### Free draws (spec/20_memory.md R223) -/

/-- DMEM as the step of a command reads it when the bytes of `drawn` race: each of them has its drawn
value. -/
def overlay (drawn : List Host.Cell) (m : List Host.Cell) : List Host.Cell :=
  drawn.foldl (fun m c => writeByte m c.1 c.2) m

/-- DMEM after the step: a drawn byte that the command did not write holds in `m` what it held in the DMEM
`stored` before the step. -/
def settle (drawn : List Host.Cell) (written : List (Nat × Nat)) (stored m : List Host.Cell) : List Host.Cell :=
  (drawn.filter fun c => !inRegions written c.1).foldl (fun m c => writeByte m c.1 (readByte stored c.1)) m

end Sys2Proof.Machine
end

