-- ==== Sys2Proof/Machine/Turn.lean ====
section
/-! DEFINITION. One turn of a port: its issued command word runs, or waits (spec/20_memory.md R220 to R223,
spec/60_exceptions.md R1022, R1030). Step.lean only calls it. -/

namespace Sys2Proof.Machine

/-- The step of the issuing port's command: an illegal word or a set reserved bit raises its fault, a
command runs (spec/60_exceptions.md R1010). -/
def runCommand (s : State) : Host.Outcome State Fault Refusal :=
  match s.fetch with
  | .ok i => exec i s
  | .error code => .next (s.raiseFault code)

/-- Port `p` can take a step: the PTB is not halted, the port has issued a command, and no lock its held
command waits for is taken (spec/60_exceptions.md R1022, R1030, spec/10_state.md R103). -/
def State.enabled (p : Nat) (s : State) : Bool := !s.halted && s.busyPort p && !s.stillWaits p

/-- The state in which the command of port `p` runs: that port issues, and the racing bytes of `drawn` read
as they are drawn (spec/20_memory.md R223, log 6). -/
def State.turnStart (p : Nat) (drawn : List Host.Cell) (s : State) : State :=
  { s with cur := p, mem := overlay drawn s.mem }

/-- The PTB gives a step to port `p`. Where the port can take none nothing happens; otherwise its command
runs, and a drawn byte it did not write keeps its stored value (log 6). -/
def takeTurn (p : Nat) (drawn : List Host.Cell) (s : State) : Host.Outcome State Fault Refusal :=
  if s.enabled p = false then .next s
  else
    match runCommand (s.turnStart p drawn) with
    | .next t => .next { t with mem := settle drawn (stepAccesses (s.turnStart p drawn) t).2 s.mem t.mem }
    | .fault f => .fault f
    | .refused r => .refused r

end Sys2Proof.Machine
end

