-- ==== Sys2Proof/Machine/Step.lean ====
section
/-! DEFINITION. One step of the machine: the next thing the outside world does, or the step of one port's
issued command (spec/20_memory.md R220, R221, log 1, log 5). -/

namespace Sys2Proof.Machine

/-- One step. Where the outside world lists nothing more, the PTB serves a port of its own choice
(log 5); a halted PTB then does nothing. -/
def step (s : State) : Host.Outcome State Fault Refusal :=
  match s.inputs with
  | [] =>
    if s.halted = true then .next s
    else takeTurn s.freePort (Config.racing s.draws) { s with draws := s.draws + 1 }
  | .setArg p k v :: rest =>
    if p < s.build.nPorts then .next ({ s with inputs := rest }.setArg p k v) else .fault .noSuchPort
  | .writeCmd p w :: rest =>
    if p < s.build.nPorts then .next ({ s with inputs := rest }.writeCmd p w) else .fault .noSuchPort
  | .pokeDmem p a b :: rest =>
    if ¬p < s.build.nPorts then .fault .noSuchPort
    else if a < s.build.dmemSize then .next ({ s with inputs := rest }.pokeDmem a b)
    else .fault .noSuchAddress
  | .take p drawn :: rest =>
    if p < s.build.nPorts then takeTurn p drawn { s with inputs := rest } else .fault .noSuchPort
  | .reset :: rest => .next ({ s with inputs := rest }.resetInput)

/-- The state whose very next step runs the command word that the low `nbits` bits of `w` spell: the word
stands in port 0's CMD with BUSY = 1, port 0 waits on no lock, the PTB is not halted, and the next input gives
port 0 its turn with no byte drawn (log 1). -/
def State.withFetchWord (s : State) (nbits w : Nat) : State :=
  { s with
    ports := s.ports.modify 0 fun r => { r with cmd := tableWord nbits w, busy := true }
    store := ({ s with cur := 0 } : State).unwait.store
    halted := false
    inputs := .take 0 [] :: s.inputs }

end Sys2Proof.Machine
end

