-- ==== Sys2Proof/Safety.lean ====
section
/-! DEFINITION. The terms the claims use: the invariants of the PTB, each a property of one kind of state
that every step is to keep, when the outside world names only agents and bytes that exist, and which runs are
the PTB's: their races and their fairness. -/

namespace Sys2Proof.Machine

/-- The register files have their sizes (spec/10_state.md R101, R113, R114). -/
abbrev State.ShapeInv (s : State) : Prop :=
  s.ports.length = s.build.nPorts ∧ s.harq.length = 16 ∧ s.lc.length = 33 ∧ s.cur < s.build.nPorts

/-- A slot record is as spec/10_state.md R110 and R111 and spec/40_config_store.md R405 and R450 say. -/
structure SlotRec.Ok (b : Build) (k : Nat) (r : SlotRec) : Prop where
  count : r.numberPdus ≤ b.nPdu
  entries : r.entries.length = b.nPdu + 1
  tag : r.tagSlot = k
  holder : ∀ p, r.lock = some p → p < b.nPorts
  types : ∀ e < r.numberPdus, 1 ≤ (r.entry e).pduType ∧ (r.entry e).pduType ≤ 4
  payloads : ∀ x ∈ r.entries, x.payload.length = 64

/-- The store does not exist before INIT, and after it has one sound record for each slot index
(spec/10_state.md R110, spec/40_config_store.md R450). -/
def State.StoreInv (s : State) : Prop :=
  (s.initDone = false → s.store = []) ∧
  (s.initDone = true → s.store.length = s.spf ∧ ∀ k < s.spf, (s.slotRec k).Ok s.build k)

/-- A logical channel's fields are legal and its bucket is in range (spec/10_state.md R114,
spec/41_lcp_bsr.md R511, R512). -/
structure LcEntry.Ok (spf : Nat) (l : LcEntry) : Prop where
  size : l.bucketSize < 2 ^ 31
  low : -2 ^ 26 < l.bj
  high : l.bj < 2 ^ 31
  cap : l.pbrInf = false → l.bj ≤ l.bucketSize
  legal : l.configured = true →
    1 ≤ l.priority ∧ l.priority ≤ 16 ∧ l.lcg ≤ 7 ∧ l.lastUpdate < 1024 * spf

/-- The logical-channel table is sound, and empty before INIT. -/
def State.LcInv (s : State) : Prop :=
  (s.initDone = false → ∀ l ∈ s.lc, l.configured = false) ∧ ∀ l ∈ s.lc, l.Ok s.spf

/-- DMEM is in its canonical form and lists only bytes that exist (spec/20_memory.md R200). -/
def State.MemInv (s : State) : Prop :=
  Memory.wf s.mem = true ∧ ∀ c ∈ s.mem, c.1 < s.build.dmemSize

/-- CFG is legal once valid, and INIT_DONE implies CFG_VALID (spec/10_state.md R108,
spec/60_exceptions.md R1011). -/
def State.ConfigInv (s : State) : Prop :=
  (s.cfgValid = true → s.cfg.legal = true) ∧ (s.initDone = true → s.cfgValid = true)

/-- A HARQ process holds legal values (spec/10_state.md R113). -/
structure HarqEntry.Ok (h : HarqEntry) : Prop where
  ndi : h.lastNdi = 0 ∨ h.lastNdi = 1 ∨ h.lastNdi = 255
  rate : h.codeRate ≤ 10240
  order : h.modOrder = 0 ∨ h.modOrder = 2 ∨ h.modOrder = 4 ∨ h.modOrder = 6 ∨ h.modOrder = 8
  round : h.round ≤ 255

/-- Every HARQ process holds legal values. -/
def State.HarqInv (s : State) : Prop := ∀ h ∈ s.harq, h.Ok

/-- The fault registers are 0 until a fault or a fatal halts the PTB, and then hold one of the codes
(spec/10_state.md R105, spec/60_exceptions.md R1002, R1020). -/
def State.FaultInv (s : State) : Prop :=
  (s.halted = false → s.faultCode = 0 ∧ s.faultPort = 0 ∧ s.faultCmd = 0) ∧
  (s.halted = true → ∃ c : FaultCode, s.faultCode = c.code)

/-- An input names an agent and a DMEM byte that exist (log 17). -/
def Input.Ok (b : Build) : Input → Prop
  | .setArg p _ _ => p < b.nPorts
  | .writeCmd p _ => p < b.nPorts
  | .pokeDmem p a _ => p < b.nPorts ∧ a < b.dmemSize
  | .take p _ => p < b.nPorts
  | .reset => True

/-- Every listed input names an agent and a byte that exist: such a run never stops. -/
def State.InputsOk (s : State) : Prop := ∀ i ∈ s.inputs, i.Ok s.build

/-- Slot `k` reads the same in two states but for the ports that wait on its lock. -/
def SameSlot (r r' : SlotRec) : Prop := { r' with waiters := r.waiters } = r

/-- Two DMEM contents agree on every byte outside the `n` bytes at `a`. -/
def SameOutside (m m' : List Host.Cell) (a n : Nat) : Prop :=
  ∀ c, c < a ∨ a + n ≤ c → readByte m' c = readByte m c

/-- The first region of a list that CheckRegion refuses, each an address, a length and an alignment, raises
the fault `c` (spec/60_exceptions.md R1012). -/
def FirstBadRegion (s : State) (l : List (Nat × Nat × Nat)) (c : FaultCode) : Prop :=
  ∃ pre a n align post, l = pre ++ (a, n, align) :: post ∧ (∀ x ∈ pre, RegionOk s x.1 x.2.1 x.2.2) ∧
    ((c = .dmemRange ∧ (2 ^ 26 ≤ a ∨ s.build.dmemSize < a + n)) ∨
      (c = .misaligned ∧ a < 2 ^ 26 ∧ a + n ≤ s.build.dmemSize ∧ a % align ≠ 0))

/-- Check `n` of a grant fails, by the numbers that spec/42_pusch_builder.md R661 gives the eight checks. A SLIV
that decodes to nothing, which no run meets, fails check 6 (log 25). -/
def GrantFails (s : State) (g : Grant) : Nat → Prop
  | 1 => 3 < g.source
  | 2 => 15 < g.harqPid ∨ 1 < g.ndi ∨ 3 < g.rv ∨ 3 < g.tpc ∨ g.allocType ≠ 1 ∨ 1 < g.scid ∨
      s.cfg.nTdra ≤ g.tdraIndex ∨ 15 < g.antennaPorts ∨ 31 < g.mcs ∨
      ((g.source = 2 ∨ g.source = 3) ∧ 15 < g.mcs) ∨
      (g.source = 1 ∧ (g.nLayers = 0 ∨ s.cfg.maxRank < g.nLayers))
  | 3 => g.tp s.cfg = true ∧ g.layers ≠ 1
  | 4 => ∀ start size, rivDecode g.riv s.cfg.bwpSize = some (start, size) →
      g.tp s.cfg = true ∧ smooth235 size = false
  | 5 => (mcsLookup (g.tp s.cfg) (g.tableCode s.cfg) g.mcs).qm.val ∉ [2, 4, 6, 8]
  | 6 => ∀ start len, slivDecode (s.cfg.tdraRow g.tdraIndex).sliv = some (start, len) →
      let row := antPortLookup (g.tp s.cfg) s.cfg.dmrsType s.cfg.dmrsMaxLength g.layers g.antennaPorts
      let double := decide (g.source = 1) && (row.map fun r => r.double).getD false
      (g.source = 1 ∧ (row = none ∨ (g.tp s.cfg = true ∧ s.cfg.dmrsType = 2))) ∨
      ∃ l ∈ dmrsSymbols s.cfg g (s.cfg.tdraRow g.tdraIndex).mappingType start len double,
        l < start ∨ start + len ≤ l
  | 7 => g.source = 1 ∧ g.tpmi ≠ 0 ∧ wLookup s.cfg.nAnt g.layers g.tpmi = none
  | 8 =>
    let h := s.harqEntry g.pid
    let row := mcsLookup (g.tp s.cfg) (g.tableCode s.cfg) g.mcs
    let tr := s.cfg.tdraRow g.tdraIndex
    (g.newData h = false ∧ h.tbsBytes = 0) ∨
      (g.newData h = true ∧ ∀ rb sl d, rivDecode g.riv s.cfg.bwpSize = some rb → slivDecode tr.sliv = some sl →
        dmrsOf s.cfg g tr.mappingType sl.1 sl.2 = some d →
        tbsCompute (dataRes d sl.2 rb.2) row.rate.val row.qm.val g.layers = 0)
  | _ => False

/-- Check `n` is the first of R661 that a grant fails. -/
def FirstGrantFailure (s : State) (g : Grant) (n : Nat) : Prop := GrantFails s g n ∧ ∀ m < n, ¬GrantFails s g m

/-- The status of a grant whose first failing check is `n` (spec/42_pusch_builder.md R661,
spec/60_exceptions.md R1001). -/
def grantStatus : Nat → Int
  | 1 => -3
  | 5 => -4
  | 8 => -5
  | _ => -6

/-- What MAP_PUSCH checks (spec/43_re_mapper.md R720), and a configuration that CFG_WRITE let in. -/
structure MapReady (s : State) (daddr : Nat) : Prop where
  cfgValid : s.cfgValid = true
  cfgLegal : s.cfg.legal = true
  desc : RegionOk s (4 * daddr) 36 4
  pduRegion : RegionOk s (mapDescAt s daddr).pduAddr 64 4
  pdu : (mapPduAt s daddr).legal s.cfg = true
  data : ∀ a ∈ (mapDescAt s daddr).dataAddr.take (mapBundleAt s daddr).layers,
    RegionOk s a (4 * (mapDescAt s daddr).dataLen) 4
  dmrs : RegionOk s (mapDescAt s daddr).dmrsAddr
    (4 * ((mapBundleAt s daddr).dm.length * (mapBundleAt s daddr).j)) 4
  ptrs : ∀ a ∈ ptrsAddrs (mapBundleAt s daddr) (mapDescAt s daddr),
    RegionOk s a (4 * ((mapBundleAt s daddr).pt.length * (mapBundleAt s daddr).nPt)) 4
  grid : RegionOk s (mapDescAt s daddr).gridAddr
    (4 * ((mapBundleAt s daddr).layers * 14 * (mapBundleAt s daddr).fft)) 4
  clear : clearOf ((mapDescAt s daddr).gridAddr,
      4 * ((mapBundleAt s daddr).layers * 14 * (mapBundleAt s daddr).fft))
    (mapInputs daddr (mapDescAt s daddr) (mapBundleAt s daddr)) = true
  length : (mapDescAt s daddr).dataLen = (mapBundleAt s daddr).nData

/-- RE `k` of symbol `l` of layer `v` belongs to the allocation (spec/43_re_mapper.md R714). -/
def Bundle.InAlloc (b : Bundle) (v l k : Nat) : Prop :=
  v < b.layers ∧ b.startSymbol ≤ l ∧ l < b.startSymbol + b.len ∧ k < b.nSc

/-- The number of data values each layer has taken before RE `k` of symbol `l`: the data REs that come
before it (spec/43_re_mapper.md R751). -/
def Bundle.taken (b : Bundle) (l k : Nat) : Nat :=
  b.res.countP fun x => decide (x.1 < l ∨ (x.1 = l ∧ x.2 < k)) && b.isDataRe x.1 x.2

/-! ### Runs: order, races and fairness (spec/20_memory.md R221 to R231, spec/60_exceptions.md R1030) -/

/-- A run: states of which each steps to the next. -/
def IsRun (r : Nat → State) : Prop := ∀ n, step (r n) = .next (r (n + 1))

/-- The agent that acts in the step of a state: it writes a register or a DMEM byte (log 1). -/
def State.agentStep (s : State) : Option Nat :=
  match s.inputs with
  | .setArg p _ _ :: _ => some p
  | .writeCmd p _ :: _ => some p
  | .pokeDmem p _ _ :: _ => some p
  | _ => none

/-- The port whose command takes the step of a state, and the bytes drawn in it (log 5, log 6). -/
def State.turnStep (s : State) : Option (Nat × List Host.Cell) :=
  match s.inputs with
  | [] => if s.enabled s.freePort then some (s.freePort, Config.racing s.draws) else none
  | .take p drawn :: _ => if s.enabled p then some (p, drawn) else none
  | _ => none

/-- The port that acts in the step of a state, by its agent or by its command. -/
def State.actor (s : State) : Option Nat := s.agentStep <|> s.turnStep.map Prod.fst

/-- The step of a state issues a command on port `p` (spec/10_state.md R102). -/
def State.issues (s : State) (p : Nat) : Prop :=
  (∃ w rest, s.inputs = .writeCmd p w :: rest) ∧ s.halted = false ∧ s.busyPort p = false

/-- The command that ends normally in the step from `s` to `t`, and the state it ran in. -/
def State.ended (s t : State) : Option (Instr × State) :=
  s.turnStep.bind fun x => (endedCommand (s.turnStart x.1 x.2) t).map fun i => (i, s.turnStart x.1 x.2)

/-- The DMEM regions that a step reads and those it writes (spec/20_memory.md R223). -/
def State.regions (s t : State) : List (Nat × Nat) × List (Nat × Nat) :=
  match s.inputs with
  | .pokeDmem _ a _ :: _ => ([], [(a, 1)])
  | _ =>
    match s.turnStep with
    | some (p, drawn) => stepAccesses (s.turnStart p drawn) t
    | none => ([], [])

/-- The step takes the lock of slot `k` (spec/20_memory.md R230); a full slot's lock is given back in the
same step. -/
def State.acquires (s t : State) (k : Nat) : Prop :=
  ∃ u, s.ulSlot k = true ∧
    ((∃ a b, s.ended t = some (.ulLockGet a b k, u)) ∨ ∃ a, s.ended t = some (.ulIterGet a k, u))

/-- The step frees the lock of slot `k` (spec/20_memory.md R230). -/
def State.releases (s t : State) (k : Nat) : Prop :=
  (s.acquires t k ∧ (t.slotRec k).lock = none) ∨
    ∃ u c h, s.ended t = some (.ulRelease c h, u) ∧ bits h 15 8 = k

/-- The step of a state is a reset (spec/70_reset_and_hazards.md R1100). -/
def State.resets (s : State) : Bool :=
  match s.inputs with
  | .reset :: _ => true
  | _ => false

/-- Step `i` of a run is ordered before step `j` (spec/20_memory.md R222, R230, log 6): both are acts of one
agent; `i` issues a command that takes `j`; `i` is a command's step and `j` an act of its agent after BUSY
reads 0; `i` comes, whoever acts in it, no later than a step that frees a lock which `j` takes after that, with no
reset between (a reset removes every lock, spec/70_reset_and_hazards.md R1100; that a release before it hands
nothing off to an acquire after it is the model's choice, log 6); or a step between them links two of these. -/
inductive Before (r : Nat → State) : Nat → Nat → Prop where
  | agent {i j p : Nat} : i < j → (r i).agentStep = some p → (r j).agentStep = some p → Before r i j
  | issue {i j p : Nat} {x : List Host.Cell} : i < j → (r i).issues p → (r j).turnStep = some (p, x) →
      Before r i j
  | ends {i j p : Nat} {x : List Host.Cell} : i < j → (r i).turnStep = some (p, x) →
      (r j).agentStep = some p → (r j).busyPort p = false → Before r i j
  | handOff {i m j k : Nat} : i ≤ m → m < j → (r m).releases (r (m + 1)) k → (r j).acquires (r (j + 1)) k →
      (∀ n, m < n → n < j → (r n).resets = false) → Before r i j
  | trans {i j k : Nat} : Before r i j → Before r j k → Before r i k

/-- Step `n` of a run reads byte `a`. -/
def ReadsByte (r : Nat → State) (n a : Nat) : Prop := inRegions ((r n).regions (r (n + 1))).1 a = true

/-- Step `n` of a run writes byte `a`. -/
def WritesByte (r : Nat → State) (n a : Nat) : Prop := inRegions ((r n).regions (r (n + 1))).2 a = true

/-- Byte `a` is a race of steps `i` and `j`: two agents access it, one writes it, and neither step is ordered
before the other (spec/20_memory.md R223). -/
def Races (r : Nat → State) (i j a : Nat) : Prop :=
  (∃ p q, (r i).actor = some p ∧ (r j).actor = some q ∧ p ≠ q) ∧
  ((WritesByte r i a ∧ (ReadsByte r j a ∨ WritesByte r j a)) ∨ (ReadsByte r i a ∧ WritesByte r j a)) ∧
  ¬Before r i j ∧ ¬Before r j i

/-- A run of the PTB: only racing bytes that a command reads are drawn freely (spec/20_memory.md R223,
log 6). In a run without races no byte is drawn, and every read gives the last value written. -/
def DrawsAreRaces (r : Nat → State) : Prop :=
  ∀ n p drawn, (r n).turnStep = some (p, drawn) → ∀ c ∈ drawn, ReadsByte r n c.1 ∧ ∃ i j, Races r i j c.1

/-- A run is weakly fair (spec/20_memory.md R231, spec/60_exceptions.md R1030, log 5): where a lock stays
FREE while some command waits for it and can take its step, some waiter is granted it and waits no more. -/
def WeaklyFair (r : Nat → State) : Prop :=
  ∀ n k, (∀ m, n ≤ m → ((r m).slotRec k).lock = none ∧
      ∃ p ∈ ((r m).slotRec k).waiters, (r m).enabled p = true) →
    ∃ m, n ≤ m ∧ ∃ p ∈ ((r m).slotRec k).waiters, p ∉ ((r (m + 1)).slotRec k).waiters

end Sys2Proof.Machine
end

