-- ==== Sys2Proof/Certificates/Slice0/Obligations.lean ====
section
/-! DEFINITION. The statements for the provers. Each says in its docstring which rule of spec/ it formalises
and which choices of the model it rests on. -/

open Sys2Proof Sys2Proof.Machine

/-! ### Encoding (spec/30_encoding.md) -/

/-- R301, R302, R305: decoding the command word of any well-formed command gives that command back, every
operand at every value its field admits. -/
def Obligations.DecodeOfEncode : Prop := ∀ i : Instr, i.wf = true → decode (encode i) = .ok i

/-- R301, R303, R305: a word that decodes is the command word of exactly the command it decodes to, so no two
words mean one command and no bit is dropped. -/
def Obligations.EncodeOfDecode : Prop :=
  ∀ (w : Word) (i : Instr), decode w = .ok i → i.wf = true ∧ encode i = w

/-- R306: the illegal opcodes are exactly the listed ones, the all-zero word is illegal, and a port's step on
a word with an illegal opcode raises ILLEGAL_COMMAND whatever the state is. -/
def Obligations.IllegalOpcodesFault : Prop :=
  (∀ w : Word, decode w = .error .illegalCommand ↔
    bits w.toNat 31 26 ∈ [0x00, 0x05, 0x06, 0x07, 0x0E, 0x0F, 0x13, 0x17, 0x1C, 0x1D, 0x1E, 0x1F] ∨
      0x23 ≤ bits w.toNat 31 26) ∧
  decode 0 = .error .illegalCommand ∧
  ∀ s : State, decode s.port.cmd = .error .illegalCommand →
    runCommand s = .next (s.raiseFault .illegalCommand)

/-- R303: for each format, a word with a legal opcode is refused for its reserved bits exactly when a bit
shown as 0, an unused PTYPE or an unused CLR is not 0, and the step then raises RESERVED_FIELD in any state,
before any other check of the command. -/
def Obligations.ReservedBitsFault : Prop :=
  (∀ w : Word, bits w.toNat 31 26 ∈
      [0x01, 0x03, 0x10, 0x11, 0x14, 0x15, 0x18, 0x19, 0x1A, 0x1B, 0x20, 0x21, 0x22] →
    (decode w = .error .reservedField ↔ bits w.toNat 25 24 ≠ 0)) ∧
  (∀ w : Word, bits w.toNat 31 26 ∈ [0x02, 0x04] →
    (decode w = .error .reservedField ↔ bits w.toNat 25 0 ≠ 0)) ∧
  (∀ w : Word, bits w.toNat 31 26 ∈ [0x12, 0x16] →
    (decode w = .error .reservedField ↔ bits w.toNat 25 8 ≠ 0)) ∧
  (∀ w : Word, bits w.toNat 31 26 ∈ [0x0A, 0x0C, 0x0D] →
    (decode w = .error .reservedField ↔ bits w.toNat 25 16 ≠ 0)) ∧
  (∀ w : Word, bits w.toNat 31 26 = 0x09 →
    (decode w = .error .reservedField ↔ bits w.toNat 24 16 ≠ 0)) ∧
  (∀ w : Word, bits w.toNat 31 26 = 0x08 →
    (decode w = .error .reservedField ↔ bits w.toNat 22 22 ≠ 0 ∨ bits w.toNat 3 0 ≠ 0)) ∧
  (∀ w : Word, bits w.toNat 31 26 = 0x0B →
    (decode w = .error .reservedField ↔ bits w.toNat 25 22 ≠ 0 ∨ bits w.toNat 3 0 ≠ 0)) ∧
  ∀ s : State, decode s.port.cmd = .error .reservedField →
    runCommand s = .next (s.raiseFault .reservedField)

/-- Command words of spec/95_test_vectors.md section 2 decode to the commands they stand for. -/
def Obligations.KnownWordsDecode : Prop :=
  decode 0x04000000 = .ok (.cfgWrite 0) ∧
  decode 0x223FF130 = .ok (.ulLockGet 4 1023 19) ∧
  decode 0x26000500 = .ok (.ulRelease 1 0x0500) ∧
  decode 0x2C000050 = .ok (.ulIterGet 0 5) ∧
  decode 0x48000003 = .ok (.harqRead 3) ∧
  decode 0x50000024 = .ok (.lcpRun 0x24) ∧
  decode 0x88001810 = .ok (.llr256Qam 0x1810)

/-- R330: where each field of CFG lies in the 128 bytes of its descriptor. -/
def Obligations.CfgDescriptorLayout : Prop :=
  ∀ (m : List Host.Cell) (a : Nat),
    let c := cfgOfBytes (readBytes m a 128)
    c.mu = memRead m a 1 ∧ c.duplex = memRead m (a + 0x01) 1 ∧ c.nRbCarrier = memRead m (a + 0x02) 2 ∧
    c.fftSize = memRead m (a + 0x04) 2 ∧ c.firstCarrierOffset = memRead m (a + 0x06) 2 ∧
    c.bwpStart = memRead m (a + 0x08) 2 ∧ c.bwpSize = memRead m (a + 0x0A) 2 ∧
    c.nAnt = memRead m (a + 0x0C) 1 ∧ c.maxRank = memRead m (a + 0x0D) 1 ∧
    c.durationRxToTx = memRead m (a + 0x0E) 1 ∧ c.tpEnabled = memRead m (a + 0x0F) 1 ∧
    c.msg3TpEnabled = memRead m (a + 0x10) 1 ∧ c.dmrsType = memRead m (a + 0x11) 1 ∧
    c.dmrsMaxLength = memRead m (a + 0x12) 1 ∧ c.dmrsAddPos = memRead m (a + 0x13) 1 ∧
    c.msg3DmrsAddPos = memRead m (a + 0x14) 1 ∧ c.dmrsTypeAPos = memRead m (a + 0x15) 1 ∧
    c.dmrsScramblingId0 = memRead m (a + 0x16) 2 ∧ c.dmrsScramblingId1 = memRead m (a + 0x18) 2 ∧
    c.ptrsEnabled = memRead m (a + 0x1A) 1 ∧ c.ptrsMcs1 = memRead m (a + 0x1B) 1 ∧
    c.ptrsMcs2 = memRead m (a + 0x1C) 1 ∧ c.ptrsMcs3 = memRead m (a + 0x1D) 1 ∧
    c.ptrsNrb0 = memRead m (a + 0x1E) 2 ∧ c.ptrsNrb1 = memRead m (a + 0x20) 2 ∧
    c.ptrsReOffset = memRead m (a + 0x22) 1 ∧ c.mcsTable = memRead m (a + 0x23) 1 ∧
    c.mcsTableTp = memRead m (a + 0x24) 1 ∧ c.msg3Delta = memRead m (a + 0x25) 1 ∧
    c.nTdra = memRead m (a + 0x26) 1 ∧
    (∀ k < 160, c.ulSlotMask.getLsbD k = (readByte m (a + 0x28 + k / 8)).getLsbD (k % 8)) ∧
    ∀ i < 16, (c.tdraRow i).k2 = memRead m (a + 0x40 + 4 * i) 1 ∧
      (c.tdraRow i).mappingType = memRead m (a + 0x41 + 4 * i) 1 ∧
      (c.tdraRow i).sliv = memRead m (a + 0x42 + 4 * i) 2

/-- R331: a PUSCH PDU whose fields fit their places comes back from its 64 bytes unchanged. -/
def Obligations.PduDescriptorRoundTrip : Prop :=
  ∀ p : Pdu,
    p.rnti < 2 ^ 16 → p.bwpStart < 2 ^ 16 → p.bwpSize < 2 ^ 16 → p.rbStart < 2 ^ 16 → p.rbSize < 2 ^ 16 →
    p.startSymbol < 2 ^ 8 → p.nrOfSymbols < 2 ^ 8 → p.mcsIndex < 2 ^ 8 → p.mcsTable < 2 ^ 8 →
    p.modOrder < 2 ^ 8 → p.nLayers < 2 ^ 8 → p.codeRate < 2 ^ 16 → p.tbsBytes < 2 ^ 32 →
    p.harqPid < 2 ^ 8 → p.ndi < 2 ^ 8 → p.rv < 2 ^ 8 → p.transformPrecoding < 2 ^ 8 →
    p.dmrsConfigType < 2 ^ 8 → p.numDmrsCdmGrpsNoData < 2 ^ 8 → p.ulDmrsScramblingId < 2 ^ 16 →
    p.scid < 2 ^ 8 → p.dmrsDouble < 2 ^ 8 → p.ptrsK < 2 ^ 8 → p.ptrsL < 2 ^ 8 → p.ptrsReOffset < 2 ^ 8 →
    p.ptrsLayer < 2 ^ 8 → p.tpmi < 2 ^ 8 → p.nAnt < 2 ^ 8 → p.tpcDelta < 2 ^ 8 → p.mappingType < 2 ^ 8 →
    p.harqAckBits < 2 ^ 16 → p.csiP1Bits < 2 ^ 16 → p.csiP2Bits < 2 ^ 16 → p.payloadAddr < 2 ^ 32 →
    p.frame < 2 ^ 16 → p.slot < 2 ^ 8 → p.reserved < 2 ^ 8 →
    (pduBytes p).length = 64 ∧ pduOfBytes (pduBytes p) = p

/-! ### The step, faults and reset (spec/60_exceptions.md, spec/10_state.md, spec/70_reset_and_hazards.md) -/

/-- R103, R220, R223, R402, R1030: when the next input gives a turn to a port whose issued word decodes to a
command, nothing but the inputs moves on while the port waits for a lock that is not FREE; otherwise the
step is `exec` of that command with that port issuing, and nothing else is changed. Where racing bytes are
drawn, the command runs in a DMEM that holds their drawn values, and each of them that the command did not
write then holds what it held before. (That inputs are listed in the state is log 1, the draws are log 6,
who waits is log 10.) -/
def Obligations.StepRunsDecodedCommand : Prop :=
  ∀ (s : State) (p : Nat) (drawn : List Host.Cell) (rest : List Input) (i : Instr),
    s.inputs = .take p drawn :: rest → p < s.build.nPorts → s.halted = false → s.busyPort p = true →
    decode (s.ports.getD p Port.afterReset).cmd = .ok i →
    ((∃ r ∈ s.store, p ∈ r.waiters ∧ r.lock ≠ none) → step s = .next { s with inputs := rest }) ∧
    ((∀ r ∈ s.store, p ∈ r.waiters → r.lock = none) →
      (drawn = [] → step s = exec i { s with inputs := rest, cur := p }) ∧
      ∃ m t m', exec i { s with inputs := rest, cur := p, mem := m } = .next t ∧
        step s = .next { t with mem := m' } ∧
        ∀ a, readByte m a = ((drawn.reverse.find? fun c => c.1 == a).map Prod.snd).getD (readByte s.mem a) ∧
          readByte m' a =
            if (∃ c ∈ drawn, c.1 = a) ∧
                ¬(t.halted = false ∧ t.port.busy = false ∧
                  inRegions (accesses { s with inputs := rest, cur := p, mem := m } i).2 a = true)
            then readByte s.mem a else readByte t.mem a)

/-- R101, R102, R103, R222: what an agent writes. A CMD write issues its word on an idle port of a running PTB,
and is ignored, with no state changed, while the port's BUSY is 1. An ARG write sets that ARG register of the
agent's port, and a DMEM write that byte, which every later read sees; nothing else changes. (That inputs are
listed in the state is log 1, that an ARG write is never ignored is log 23.) -/
def Obligations.AgentWritesTakeEffect : Prop :=
  ∀ (s : State) (p : Nat) (rest : List Input), p < s.build.nPorts →
    (∀ w, s.inputs = .writeCmd p w :: rest →
      (s.busyPort p = true → step s = .next { s with inputs := rest }) ∧
      (s.busyPort p = false → s.halted = false → step s = .next
        { s with inputs := rest, ports := s.ports.modify p fun r => { r with cmd := w, busy := true } })) ∧
    (∀ k v, s.inputs = .setArg p k v :: rest → step s = .next
      { s with
        inputs := rest
        ports := s.ports.modify p fun r =>
          { r with
            arg0 := if k = 0 then v else r.arg0
            arg1 := if k = 1 then v else r.arg1
            arg2 := if k = 2 then v else r.arg2
            arg3 := if k = 3 then v else r.arg3 } }) ∧
    ∀ a b, s.inputs = .pokeDmem p a b :: rest → a < s.build.dmemSize →
      ∃ m, step s = .next { s with inputs := rest, mem := m } ∧
        ∀ x, readByte m x = if x = a then b else readByte s.mem x

/-- R1022: while HALTED is 1 no command takes a step, a CMD write is ignored and changes nothing, and a
command that was held stays held. Only the inputs move on (log 1). -/
def Obligations.HaltedPtbStandsStill : Prop :=
  ∀ s : State, s.halted = true →
    (∀ p drawn rest, s.inputs = .take p drawn :: rest → p < s.build.nPorts →
      step s = .next { s with inputs := rest }) ∧
    (∀ p w rest, s.inputs = .writeCmd p w :: rest → p < s.build.nPorts →
      step s = .next { s with inputs := rest }) ∧
    (s.inputs = [] → step s = .next s)

/-- R119: what reset leaves, for the reset input at any time. Every port register, CFG field and flag is 0,
the store does not exist, the HARQ table has `last_ndi` per HARQ_NDI_AFTER_RESET and zeros, the
logical-channel table is all 0, the BSR state is (0, 0, 255), the error log is empty, and DMEM is what it
was. (That reset is a listed input is log 1, and that it keeps the implementation is log 22: both are choices
of the model.) -/
def Obligations.ResetLeavesResetValues : Prop :=
  ∀ (s : State) (rest : List Input), s.inputs = .reset :: rest →
    ∃ t, step s = .next t ∧
      t.ports = List.replicate s.build.nPorts ⟨0, 0, 0, 0, 0, 0, 0, 0, false⟩ ∧
      t.cfg = cfgOfBytes (List.replicate 128 0) ∧ t.cfgValid = false ∧
      t.initDone = false ∧ t.halted = false ∧ t.faultCode = 0 ∧ t.faultPort = 0 ∧ t.faultCmd = 0 ∧
      t.store = [] ∧
      t.harq = List.replicate 16
        ⟨(match s.build.ndiAfterReset with | .zero => 0 | .none => 0xFF), 0, 0, 0, 0⟩ ∧
      t.lc = List.replicate 33 ⟨false, 0, 0, false, 0, 0, 0, 0⟩ ∧
      t.bsrRegularPending = false ∧ t.prevLcgData = 0 ∧ t.prevBestPrio = 255 ∧ t.errLog = [] ∧
      t.mem = s.mem ∧ t.build = s.build

/-- R1000, R1030 and log 17: while the inputs name agents and bytes that exist, every step answers a next
state and this stays so: no command ever stops the model. -/
def Obligations.NoStepStopsTheModel : Prop :=
  ∀ s : State, s.InputsOk → ∃ t, step s = .next t ∧ t.InputsOk

/-- R105: no step clears CFG_VALID, INIT_DONE or HALTED unless its input is reset, and no step changes the
implementation (log 2). -/
def Obligations.FlagsClearedByResetOnly : Prop :=
  ∀ s t : State, step s = .next t → t.build = s.build ∧
    ((∀ rest, s.inputs ≠ .reset :: rest) →
      (s.cfgValid = true → t.cfgValid = true) ∧ (s.initDone = true → t.initDone = true) ∧
      (s.halted = true → t.halted = true))

/-- R1000, R1020, R1021, R1030: a command ends in one of three ways. It ends normally with BUSY = 0. Or it
halts the PTB and leaves, of everything else, exactly what there was before it: HALTED, FAULT_CODE, FAULT_PORT
and FAULT_CMD are written, the issuing port's BUSY becomes 0, and no DMEM byte, register, table, store or log
entry changes (FAULT_PORT holds the low 8 bits of the port number: log 11). Or it is held, which only
UL_LOCK_GET, UL_ITER_GET and TA_EXPIRY can be, with no effect but its port among the waiters of a lock that is
not FREE (log 10). -/
def Obligations.CommandEndsInOneOfThreeWays : Prop :=
  ∀ (i : Instr) (s t : State), s.halted = false → exec i s = .next t →
    (t.halted = false ∧ t.port.busy = false) ∨
    (∃ c : FaultCode, t =
      { s with
        halted := true
        faultCode := c.code
        faultPort := BitVec.ofNat 8 s.cur
        faultCmd := s.port.cmd
        ports := s.ports.modify s.cur fun p => { p with busy := false } }) ∨
    (t = { s with store := t.store } ∧ (∀ k, SameSlot (s.slotRec k) (t.slotRec k)) ∧
      (∃ r ∈ t.store, s.cur ∈ r.waiters ∧ r.lock ≠ none) ∧
      ((∃ a b c, i = .ulLockGet a b c) ∨ (∃ a b, i = .ulIterGet a b) ∨ i = .taExpiry))

/-- R1011: a command whose prerequisite flag is 0 raises NOT_INITIALISED, and a command with no prerequisite
never does. (TP_DFT has none: log 8.) -/
def Obligations.PrerequisiteFlags : Prop :=
  ∀ (i : Instr) (s : State), s.halted = false →
    (prerequisite s i = false → exec i s = .next (s.raiseFault .notInitialised)) ∧
    (prerequisite s i = true → exec i s ≠ .next (s.raiseFault .notInitialised))

/-- R216, R1020, R1030: a command that ends normally changes no byte of DMEM outside the regions that `accesses` gives it to
write, and a command that faults or is held changes none at all. (What is drawn and what races is decided by
these regions: log 6.) -/
def Obligations.CommandsWriteOnlyTheirFootprint : Prop :=
  ∀ (i : Instr) (s t : State), s.halted = false → exec i s = .next t → ∀ a,
    inRegions (accesses s i).2 a = false ∨ t.halted = true ∨ t.port.busy = true →
    readByte t.mem a = readByte s.mem a

/-- R201, R210, R304, R310, R311, R401, R420, R430, R431, R502, R670, R1012: the faults of an operand. A slot
operand of spf or more and an INDEX above its table raise BAD_ARG, a PTYPE that is no PDU type raises
FATAL_INVALID_ENUM, and a descriptor or record that is not inside DMEM raises DMEM_RANGE, one that is not
aligned MISALIGNED. (TP_DFT needs no flag: log 8.) -/
def Obligations.OperandFaults : Prop :=
  ∀ s : State,
    (∀ (i : Instr) (daddr n : Nat) (c : FaultCode),
      (n = 128 ∧ i = .cfgWrite daddr) ∨ (n = 48 ∧ i = .bsrEval daddr) ∨ (n = 36 ∧ i = .mapPusch daddr) ∨
        (n = 32 ∧ (i = .grantTarget daddr ∨ i = .puschBuild daddr)) ∨ (n = 28 ∧ i = .layerMap daddr) ∨
        (n = 24 ∧ (i = .llr16Qam daddr ∨ i = .llr64Qam daddr ∨ i = .llr256Qam daddr)) ∨
        (n = 16 ∧ (i = .lcConfig daddr ∨ i = .tpDft daddr)) ∨
        (n = 12 ∧ (i = .lcpRun daddr ∨ i = .precode daddr)) →
      prerequisite s i = true → FirstBadRegion s [(4 * daddr, n, 4)] c → exec i s = .next (s.raiseFault c)) ∧
    (∀ (i : Instr) (index n top : Nat),
      (i = .harqRead index ∧ n = 12 ∧ top = 15) ∨ (i = .lcRead index ∧ n = 24 ∧ top = 32) → s.initDone = true →
      (top < index → exec i s = .next (s.raiseFault .badArg)) ∧
      ∀ c, index ≤ top → FirstBadRegion s [(s.port.arg0.toNat, n, 4)] c → exec i s = .next (s.raiseFault c)) ∧
    (∀ (i : Instr) (h : Nat) (c : FaultCode),
      (i = .ulPduWrite h ∧ bits h 7 0 < (s.slotRec (bits h 15 8)).numberPdus) ∨
        (i = .ulPduRead h ∧ bits h 7 0 ≤ (s.slotRec (bits h 15 8)).numberPdus) →
      s.initDone = true → h ≠ 0xFFFF → bits h 15 8 < s.spf → bits h 7 0 ≤ s.build.nPdu →
      (s.slotRec (bits h 15 8)).lock = some s.cur → FirstBadRegion s [(s.port.arg0.toNat, 64, 4)] c →
      exec i s = .next (s.raiseFault c)) ∧
    (s.initDone = true → ∀ ptype frame slot : Nat,
      (s.spf ≤ slot → exec (.ulLockGet ptype frame slot) s = .next (s.raiseFault .badArg) ∧
        exec (.ulIterGet frame slot) s = .next (s.raiseFault .badArg)) ∧
      (slot < s.spf → ptype = 0 ∨ 5 ≤ ptype →
        exec (.ulLockGet ptype frame slot) s = .next (s.raiseFault .fatalInvalidEnum)))

/-- R201, R210, R520, R540, R720, R810, R820, R833, R906, R1012: the faults of the regions that a descriptor
names: the first that is not inside DMEM raises DMEM_RANGE, the first that is not aligned MISALIGNED, in the
order in which each command checks them. With `n_in = 0` LAYER_MAP checks of each address bits 31:26 and the
alignment only.
(That choice between R810 and R1012 is log 27, that no overlap is looked at before all regions are checked is
log 7, that TP_DFT needs no flag is log 8.) -/
def Obligations.DescriptorRegionsFault : Prop :=
  ∀ s : State,
    (∀ (daddr : Nat) (c : FaultCode), s.initDone = true → RegionOk s (4 * daddr) 12 4 →
      let d := lcpDescOfBytes (readBytes s.mem (4 * daddr) 12)
      d.reserved = 0 → d.frame ≤ 1023 → d.slot < s.spf → d.buflen ≠ 0 →
      FirstBadRegion s [(d.outAddr, d.buflen, 1)] c → exec (.lcpRun daddr) s = .next (s.raiseFault c)) ∧
    (∀ (daddr : Nat) (c : FaultCode), RegionOk s (4 * daddr) 48 4 →
      let d := bsrDescOfBytes (readBytes s.mem (4 * daddr) 48)
      (∀ g < 8, (1 ≤ d.lcgBestPrio.getD g 255 ∧ d.lcgBestPrio.getD g 255 ≤ 16 ∧ 0 < d.lcgBytes.getD g 0) ∨
        (d.lcgBestPrio.getD g 255 = 255 ∧ d.lcgBytes.getD g 0 = 0)) →
      FirstBadRegion s [(d.outAddr, min d.space 11, 1)] c → exec (.bsrEval daddr) s = .next (s.raiseFault c)) ∧
    (∀ (daddr : Nat) (c : FaultCode), RegionOk s (4 * daddr) 28 4 →
      let d := layerMapDescOfBytes (readBytes s.mem (4 * daddr) 28)
      d.reserved = 0 → 1 ≤ d.nLayers → d.nLayers ≤ 4 → d.nIn % d.nLayers = 0 →
      (d.nIn ≠ 0 → FirstBadRegion s ((d.inAddr, 4 * d.nIn, 4) ::
          (List.range d.nLayers).map fun v => (d.outAddr.getD v 0, 4 * (d.nIn / d.nLayers), 4)) c →
        exec (.layerMap daddr) s = .next (s.raiseFault c)) ∧
      (d.nIn = 0 → ∀ pre a post,
        d.inAddr :: (List.range d.nLayers).map (fun v => d.outAddr.getD v 0) = pre ++ a :: post →
        (∀ b ∈ pre, b < 2 ^ 26 ∧ b % 4 = 0) →
        (2 ^ 26 ≤ a → exec (.layerMap daddr) s = .next (s.raiseFault .dmemRange)) ∧
        (a < 2 ^ 26 → a % 4 ≠ 0 → exec (.layerMap daddr) s = .next (s.raiseFault .misaligned)))) ∧
    (∀ (daddr : Nat) (c : FaultCode), RegionOk s (4 * daddr) 16 4 →
      let t := tpDescOfBytes (readBytes s.mem (4 * daddr) 16)
      let p := readPdu s t.pduAddr
      (FirstBadRegion s [(t.pduAddr, 64, 4)] c → exec (.tpDft daddr) s = .next (s.raiseFault c)) ∧
      (RegionOk s t.pduAddr 64 4 → p.legal s.cfg = true → p.transformPrecoding = 1 →
        smooth235 (12 * p.rbSize) = true →
        t.n = 12 * p.rbSize * (p.nrOfSymbols - popcount p.ulDmrsSymbPos) →
        FirstBadRegion s [(t.inAddr, 4 * t.n, 4), (t.outAddr, 4 * t.n, 4)] c →
        exec (.tpDft daddr) s = .next (s.raiseFault c))) ∧
    (∀ (daddr : Nat) (c : FaultCode), s.cfgValid = true → RegionOk s (4 * daddr) 36 4 →
      let d := mapDescAt s daddr
      let b := mapBundleAt s daddr
      (FirstBadRegion s [(d.pduAddr, 64, 4)] c → exec (.mapPusch daddr) s = .next (s.raiseFault c)) ∧
      (RegionOk s d.pduAddr 64 4 → (mapPduAt s daddr).legal s.cfg = true →
        FirstBadRegion s (((List.range b.layers).map fun v => (d.dataAddr.getD v 0, 4 * d.dataLen, 4)) ++
          [(d.dmrsAddr, 4 * (b.dm.length * b.j), 4)] ++
          (if b.pt = [] then [] else [(d.ptrsAddr, 4 * (b.pt.length * b.nPt), 4)]) ++
          [(d.gridAddr, 4 * (b.layers * 14 * s.cfg.fftSize), 4)]) c →
        exec (.mapPusch daddr) s = .next (s.raiseFault c))) ∧
    (∀ (daddr : Nat) (c : FaultCode), s.cfgValid = true → RegionOk s (4 * daddr) 12 4 →
      let d := precodeDescOfBytes (readBytes s.mem (4 * daddr) 12)
      let p := readPdu s d.pduAddr
      (FirstBadRegion s [(d.pduAddr, 64, 4)] c → exec (.precode daddr) s = .next (s.raiseFault c)) ∧
      (RegionOk s d.pduAddr 64 4 → p.legal s.cfg = true → p.nAnt = s.cfg.nAnt → p.nLayers ≤ p.nAnt →
        (p.tpmi ≠ 0 → (wLookup p.nAnt p.nLayers p.tpmi).isSome = true) →
        FirstBadRegion s [(d.layerGridAddr, 4 * (p.nLayers * 14 * s.cfg.fftSize), 4),
          (d.antGridAddr, 4 * (p.nAnt * 14 * s.cfg.fftSize), 4)] c →
        exec (.precode daddr) s = .next (s.raiseFault c))) ∧
    ∀ (daddr nm : Nat) (i : Instr) (c : FaultCode),
      (i = .llr16Qam daddr ∧ nm = 1) ∨ (i = .llr64Qam daddr ∧ nm = 2) ∨ (i = .llr256Qam daddr ∧ nm = 3) →
      RegionOk s (4 * daddr) 24 4 →
      let d := llrDescOfBytes (readBytes s.mem (4 * daddr) 24)
      d.nbRe ≤ 65535 →
      FirstBadRegion s ((d.rxAddr, 4 * d.nbRe, 4) ::
        ((List.range nm).map fun k => (d.magAddr.getD k 0, 4 * d.nbRe, 4)) ++
        [(d.outAddr, 2 * (2 * (nm + 1)) * d.nbRe, 2)]) c →
      exec i s = .next (s.raiseFault c)

/-- R216, R307, R310, R500, R520, R540, R701, R720, R810, R820, R833, R906: the faults of a descriptor whose
region is right: a reserved byte or a field out of range raises BAD_ARG, a PDU that fails its checks BAD_PDU,
lengths that do not fit DATA_LENGTH, a transform size with another prime factor DFT_SIZE, and an output
that overlaps an input BAD_ARG. Which CFG and which PDU are legal is LegalValuesAreTheListed; the checks of a
grant descriptor are HandleChecksInOrder and GrantTargetFindsSkipsOrHalts. (Overlaps with the descriptor or the
PDU are log 7, the whole antenna grid of PRECODE against these two being its DESIGN CHOICE; TP_DFT's BAD_PDU while
CFG_VALID = 0 is log 8; BAD_PDU and not BAD_ARG for a PDU's reserved byte is log 24.) -/
def Obligations.DescriptorChecksFault : Prop :=
  ∀ (s : State) (daddr : Nat),
    (s.initDone = true → RegionOk s (4 * daddr) 16 4 →
      let d := lcDescOfBytes (readBytes s.mem (4 * daddr) 16)
      d.reserved ≠ 0 ∨ 32 < d.lcid ∨ d.priority = 0 ∨ 16 < d.priority ∨ 7 < d.lcg ∨ 4 ≤ d.flags ∨
        2 ^ 31 ≤ d.bucketSize ∨ 1023 < d.frame ∨ s.spf ≤ d.slot →
      exec (.lcConfig daddr) s = .next (s.raiseFault .badArg)) ∧
    (s.initDone = true → RegionOk s (4 * daddr) 12 4 →
      let d := lcpDescOfBytes (readBytes s.mem (4 * daddr) 12)
      (d.reserved ≠ 0 ∨ 1023 < d.frame ∨ s.spf ≤ d.slot ∨ d.buflen = 0 ∨
        (RegionOk s d.outAddr d.buflen 1 ∧ overlaps (d.outAddr, d.buflen) (4 * daddr, 12) = true)) →
      exec (.lcpRun daddr) s = .next (s.raiseFault .badArg)) ∧
    (RegionOk s (4 * daddr) 48 4 →
      let d := bsrDescOfBytes (readBytes s.mem (4 * daddr) 48)
      let consistent := ∀ g < 8,
        (1 ≤ d.lcgBestPrio.getD g 255 ∧ d.lcgBestPrio.getD g 255 ≤ 16 ∧ 0 < d.lcgBytes.getD g 0) ∨
          (d.lcgBestPrio.getD g 255 = 255 ∧ d.lcgBytes.getD g 0 = 0)
      ¬consistent ∨ (RegionOk s d.outAddr (min d.space 11) 1 ∧
        overlaps (d.outAddr, (bsrBytes d.space d.lcgBytes d.lcgBestPrio).length) (4 * daddr, 48) = true) →
      exec (.bsrEval daddr) s = .next (s.raiseFault .badArg)) ∧
    (RegionOk s (4 * daddr) 28 4 →
      let d := layerMapDescOfBytes (readBytes s.mem (4 * daddr) 28)
      let out := fun v => (d.outAddr.getD v 0, 4 * (d.nIn / d.nLayers))
      (d.reserved ≠ 0 ∨ d.nLayers = 0 ∨ 4 < d.nLayers → exec (.layerMap daddr) s = .next (s.raiseFault .badArg)) ∧
      (d.reserved = 0 → 1 ≤ d.nLayers → d.nLayers ≤ 4 →
        (d.nIn % d.nLayers ≠ 0 → exec (.layerMap daddr) s = .next (s.raiseFault .dataLength)) ∧
        (d.nIn % d.nLayers = 0 → RegionOk s d.inAddr (4 * d.nIn) 4 →
          (∀ v < d.nLayers, RegionOk s (out v).1 (out v).2 4) →
          (∃ v < d.nLayers, overlaps (out v) (d.inAddr, 4 * d.nIn) = true ∨
            overlaps (out v) (4 * daddr, 28) = true ∨ ∃ u < v, overlaps (out v) (out u) = true) →
          exec (.layerMap daddr) s = .next (s.raiseFault .badArg)))) ∧
    (RegionOk s (4 * daddr) 16 4 →
      let t := tpDescOfBytes (readBytes s.mem (4 * daddr) 16)
      let p := readPdu s t.pduAddr
      let M := 12 * p.rbSize
      RegionOk s t.pduAddr 64 4 →
      (p.legal s.cfg = false ∨ p.transformPrecoding ≠ 1 →
        exec (.tpDft daddr) s = .next (s.raiseFault .badPdu)) ∧
      (p.legal s.cfg = true → p.transformPrecoding = 1 →
        (smooth235 M = false → exec (.tpDft daddr) s = .next (s.raiseFault .dftSize)) ∧
        (smooth235 M = true →
          (t.n ≠ M * (p.nrOfSymbols - popcount p.ulDmrsSymbPos) →
            exec (.tpDft daddr) s = .next (s.raiseFault .dataLength)) ∧
          (t.n = M * (p.nrOfSymbols - popcount p.ulDmrsSymbPos) →
            RegionOk s t.inAddr (4 * t.n) 4 → RegionOk s t.outAddr (4 * t.n) 4 →
            (t.inAddr ≠ t.outAddr ∧ overlaps (t.outAddr, 4 * t.n) (t.inAddr, 4 * t.n) = true) ∨
              overlaps (t.outAddr, 4 * t.n) (4 * daddr, 16) = true ∨
              overlaps (t.outAddr, 4 * t.n) (t.pduAddr, 64) = true →
            exec (.tpDft daddr) s = .next (s.raiseFault .badArg))))) ∧
    (s.cfgValid = true → RegionOk s (4 * daddr) 36 4 →
      let d := mapDescAt s daddr
      let b := mapBundleAt s daddr
      let grid := (d.gridAddr, 4 * (b.layers * 14 * s.cfg.fftSize))
      RegionOk s d.pduAddr 64 4 →
      ((mapPduAt s daddr).legal s.cfg = false → exec (.mapPusch daddr) s = .next (s.raiseFault .badPdu)) ∧
      ((mapPduAt s daddr).legal s.cfg = true →
        (∀ v < b.layers, RegionOk s (d.dataAddr.getD v 0) (4 * d.dataLen) 4) →
        RegionOk s d.dmrsAddr (4 * (b.dm.length * b.j)) 4 →
        (b.pt ≠ [] → RegionOk s d.ptrsAddr (4 * (b.pt.length * b.nPt)) 4) → RegionOk s grid.1 grid.2 4 →
        let bad := overlaps grid (4 * daddr, 36) = true ∨ overlaps grid (d.pduAddr, 64) = true ∨
          (∃ v < b.layers, overlaps grid (d.dataAddr.getD v 0, 4 * d.dataLen) = true) ∨
          overlaps grid (d.dmrsAddr, 4 * (b.dm.length * b.j)) = true ∨
          (b.pt ≠ [] ∧ overlaps grid (d.ptrsAddr, 4 * (b.pt.length * b.nPt)) = true)
        (bad → exec (.mapPusch daddr) s = .next (s.raiseFault .badArg)) ∧
        (¬bad → d.dataLen ≠ b.nData → exec (.mapPusch daddr) s = .next (s.raiseFault .dataLength)))) ∧
    (s.cfgValid = true → RegionOk s (4 * daddr) 12 4 →
      let d := precodeDescOfBytes (readBytes s.mem (4 * daddr) 12)
      let p := readPdu s d.pduAddr
      let grid := (d.antGridAddr, 4 * (p.nAnt * 14 * s.cfg.fftSize))
      let layers := (d.layerGridAddr, 4 * (p.nLayers * 14 * s.cfg.fftSize))
      let illegal := p.legal s.cfg = false ∨ p.nAnt ≠ s.cfg.nAnt ∨ p.nAnt < p.nLayers ∨
        (p.tpmi ≠ 0 ∧ wLookup p.nAnt p.nLayers p.tpmi = none)
      RegionOk s d.pduAddr 64 4 →
      (illegal → exec (.precode daddr) s = .next (s.raiseFault .badPdu)) ∧
      (¬illegal → RegionOk s layers.1 layers.2 4 → RegionOk s grid.1 grid.2 4 →
        overlaps grid layers = true ∨ overlaps grid (4 * daddr, 12) = true ∨
          overlaps grid (d.pduAddr, 64) = true →
        exec (.precode daddr) s = .next (s.raiseFault .badArg))) ∧
    ∀ (i : Instr) (nm : Nat),
      (i = .llr16Qam daddr ∧ nm = 1) ∨ (i = .llr64Qam daddr ∧ nm = 2) ∨ (i = .llr256Qam daddr ∧ nm = 3) →
      RegionOk s (4 * daddr) 24 4 →
      let d := llrDescOfBytes (readBytes s.mem (4 * daddr) 24)
      let out := (d.outAddr, 2 * (2 * (nm + 1)) * d.nbRe)
      (65535 < d.nbRe → exec i s = .next (s.raiseFault .badArg)) ∧
      (d.nbRe ≤ 65535 → RegionOk s d.rxAddr (4 * d.nbRe) 4 →
        (∀ k < nm, RegionOk s (d.magAddr.getD k 0) (4 * d.nbRe) 4) → RegionOk s out.1 out.2 2 →
        overlaps out (4 * daddr, 24) = true ∨ overlaps out (d.rxAddr, 4 * d.nbRe) = true ∨
          (∃ k < nm, overlaps out (d.magAddr.getD k 0, 4 * d.nbRe) = true) →
        exec i s = .next (s.raiseFault .badArg))

/-- R108, R639, R701, R732, R821: the legal values, one by one. A CFG is legal exactly when its fields hold the
values of R108 (its time-allocation rows in use a SLIV that fits their mapping type), a PUSCH PDU exactly when
it passes the eight checks of R701, and a transform size when it is `2^a * 3^b * 5^c`. -/
def Obligations.LegalValuesAreTheListed : Prop :=
  (∀ c : CfgRegs, c.legal = true ↔
    c.mu ≤ 4 ∧ c.duplex ≤ 1 ∧ 1 ≤ c.nRbCarrier ∧ c.nRbCarrier ≤ 275 ∧ 12 * c.nRbCarrier ≤ c.fftSize ∧
    c.fftSize ≤ 4096 ∧ c.firstCarrierOffset < c.fftSize ∧ 1 ≤ c.bwpSize ∧ c.bwpStart + c.bwpSize ≤ c.nRbCarrier ∧
    c.nAnt ∈ [1, 2, 4] ∧ 1 ≤ c.maxRank ∧ c.maxRank ≤ 4 ∧ c.maxRank ≤ c.nAnt ∧ c.tpEnabled ≤ 1 ∧
    c.msg3TpEnabled ≤ 1 ∧ c.dmrsType ∈ [1, 2] ∧ c.dmrsMaxLength ∈ [1, 2] ∧ c.dmrsAddPos ≤ 3 ∧
    c.msg3DmrsAddPos ≤ 3 ∧ c.dmrsTypeAPos ∈ [2, 3] ∧ c.ptrsEnabled ≤ 1 ∧
    (c.ptrsMcs1 = 255 ∧ c.ptrsMcs2 = 255 ∧ c.ptrsMcs3 = 255 ∨
      c.ptrsMcs1 ≤ c.ptrsMcs2 ∧ c.ptrsMcs2 ≤ c.ptrsMcs3 ∧ c.ptrsMcs3 ≤ 31) ∧
    (c.ptrsNrb0 = 0xFFFF ∧ c.ptrsNrb1 = 0xFFFF ∨ 1 ≤ c.ptrsNrb0 ∧ c.ptrsNrb0 ≤ c.ptrsNrb1 ∧ c.ptrsNrb1 ≤ 275) ∧
    c.ptrsReOffset ≤ 3 ∧ c.mcsTable ≤ 2 ∧ c.mcsTableTp ≤ 1 ∧ c.msg3Delta ≤ 15 ∧ 1 ≤ c.nTdra ∧ c.nTdra ≤ 16 ∧
    (∀ k, c.ulSlotMask.getLsbD k = true → k < 10 * 2 ^ c.mu) ∧
    ∀ i r, i < c.nTdra → c.tdra[i]? = some r → r.k2 ≤ 32 ∧ r.mappingType ≤ 1 ∧ ∃ start len,
      1 ≤ len ∧ start + len ≤ 14 ∧ (r.mappingType = 0 → start = 0 ∧ 4 ≤ len) ∧
      r.sliv = if len - 1 ≤ 7 then 14 * (len - 1) + start else 14 * (14 - len + 1) + (14 - 1 - start)) ∧
  (∀ (c : CfgRegs) (p : Pdu),
    let dmrs := fun l => p.ulDmrsSymbPos.getLsbD l = true
    let inside := fun l => p.startSymbol ≤ l ∧ l < p.startSymbol + p.nrOfSymbols
    p.legal c = true ↔
      (p.reserved = 0 ∧ (∀ k, 4 ≤ k → p.pduBitMap.getLsbD k = false) ∧ p.pduBitMap.getLsbD 0 = true ∧
        p.transformPrecoding = if p.pduBitMap.getLsbD 3 then 1 else 0) ∧
      (1 ≤ p.bwpSize ∧ p.bwpStart + p.bwpSize ≤ c.nRbCarrier ∧ 1 ≤ p.rbSize ∧ p.rbStart + p.rbSize ≤ p.bwpSize) ∧
      (1 ≤ p.nrOfSymbols ∧ p.startSymbol + p.nrOfSymbols ≤ 14) ∧
      (1 ≤ p.nLayers ∧ p.nLayers ≤ 4 ∧ p.dmrsConfigType ∈ [1, 2] ∧ 1 ≤ p.numDmrsCdmGrpsNoData ∧
        p.numDmrsCdmGrpsNoData ≤ if p.dmrsConfigType = 1 then 2 else 3) ∧
      ((List.range 16).countP (fun q => p.dmrsPorts.getLsbD q) = p.nLayers ∧
        ∀ q, p.dmrsPorts.getLsbD q = true → q < (if p.dmrsConfigType = 1 then 8 else 12) ∧
          (if p.dmrsConfigType = 1 then q / 2 % 2 else q / 2 % 3) < p.numDmrsCdmGrpsNoData) ∧
      ((∃ l, dmrs l) ∧ (∀ l, dmrs l → l < 14 ∧ inside l) ∧ p.dmrsDouble ≤ 1 ∧
        (p.dmrsDouble = 1 → ∃ firsts : List Nat, firsts.Pairwise (fun a b => a + 1 < b) ∧
          ∀ l, dmrs l ↔ ∃ a ∈ firsts, l = a ∨ l = a + 1)) ∧
      (p.pduBitMap.getLsbD 2 = true → p.transformPrecoding = 0 ∧ p.ptrsK ∈ [2, 4] ∧ p.ptrsL ∈ [1, 2, 4] ∧
        p.ptrsReOffset ≤ 3 ∧ p.ptrsLayer < p.nLayers ∧ (∃ l, p.ptrsSymbPos.getLsbD l = true) ∧
        ∀ l, p.ptrsSymbPos.getLsbD l = true → inside l ∧ ¬dmrs l) ∧
      (p.transformPrecoding = 1 → p.dmrsConfigType = 1 ∧ p.numDmrsCdmGrpsNoData = 2 ∧ p.nLayers = 1)) ∧
  ∀ n < 2 ^ 32, smooth235 n = true ↔ ∃ a b c, n = 2 ^ a * 3 ^ b * 5 ^ c

/-! ### Invariants kept by every step -/

/-- R101, R105, R108, R113, R114, R440, R662, R1002, R1011, R1020: every step keeps the sizes of the register
files and an issuing port that exists, the fault registers at 0 until a halt and then at one of the codes, a
valid CFG legal with INIT_DONE implying CFG_VALID, and every HARQ process at legal values. -/
def Obligations.StepKeepsRegistersLegal : Prop :=
  ∀ s t : State, step s = .next t →
    (s.ShapeInv → t.ShapeInv) ∧ (s.FaultInv → t.FaultInv) ∧ (s.ConfigInv → t.ConfigInv) ∧ (s.HarqInv → t.HarqInv)

/-- R110, R111, R405, R450: every step keeps the store sound: one record for each slot index once INIT has
run, `number_pdus` at most N_PDU, the tag slot its own index, a lock held by a port that exists, every
counted entry of type 1 to 4. -/
def Obligations.StepKeepsStoreSound : Prop :=
  ∀ s t : State, s.StoreInv → step s = .next t → t.StoreInv

/-- R114, R511, R512: every step keeps the logical-channel table legal and every bucket in
`(-2^26, 2^31)`, at most `bucket_size` for a finite PBR. -/
def Obligations.StepKeepsBucketsInRange : Prop :=
  ∀ s t : State, s.LcInv → step s = .next t → t.LcInv

/-- R200, R201 and log 3: from a state whose configuration is legal once valid, every step keeps DMEM in its
one canonical form and lists no byte at or above DMEM_SIZE. (That the configuration stays legal is
StepKeepsRegistersLegal.) -/
def Obligations.StepKeepsDmemCanonical : Prop :=
  ∀ s t : State, s.ConfigInv → s.MemInv → step s = .next t → t.MemInv

/-- R119: the state after reset meets every invariant. (That its DMEM lists no byte is log 3, that it lists no
input and that `cur` is 0 is log 1: these are choices of the model, where R119 leaves DMEM as the host left it.) -/
def Obligations.ResetMeetsEveryInvariant : Prop :=
  State.reset.ShapeInv ∧ State.reset.StoreInv ∧ State.reset.LcInv ∧ State.reset.MemInv ∧
  State.reset.ConfigInv ∧ State.reset.HarqInv ∧ State.reset.FaultInv ∧ State.reset.InputsOk

/-! ### Configuration and the store (spec/40_config_store.md) -/

/-- R440: CFG_WRITE of a legal descriptor loads CFG, sets CFG_VALID and changes nothing else; of a descriptor
with a reserved byte set, an illegal field or, after INIT, another `mu` it raises BAD_CONFIG. -/
def Obligations.CfgWriteLoadsOrRefuses : Prop :=
  ∀ (s : State) (daddr : Nat),
    RegionOk s (4 * daddr) 128 4 →
    let c := cfgOfBytes (readBytes s.mem (4 * daddr) 128)
    (memRead s.mem (4 * daddr + 0x27) 1 = 0 → memRead s.mem (4 * daddr + 0x3C) 4 = 0 → c.legal = true →
      (s.initDone = true → c.mu = s.cfg.mu) →
      exec (.cfgWrite daddr) s = .next
        { s with
          cfg := c
          cfgValid := true
          ports := s.ports.modify s.cur fun p => { p with status := 0, busy := false } }) ∧
    (memRead s.mem (4 * daddr + 0x27) 1 ≠ 0 ∨ memRead s.mem (4 * daddr + 0x3C) 4 ≠ 0 ∨ c.legal = false ∨
        (s.initDone = true ∧ c.mu ≠ s.cfg.mu) →
      exec (.cfgWrite daddr) s = .next (s.raiseFault .badConfig))

/-- R441: INIT before a valid CFG_WRITE raises NOT_INITIALISED, a second INIT raises BAD_ARG, and otherwise
INIT builds one empty FREE record for each slot index, sets INIT_DONE and changes nothing else. -/
def Obligations.InitBuildsTheStore : Prop :=
  ∀ s : State,
    (s.cfgValid = false → exec .init s = .next (s.raiseFault .notInitialised)) ∧
    (s.cfgValid = true → s.initDone = true → exec .init s = .next (s.raiseFault .badArg)) ∧
    (s.cfgValid = true → s.initDone = false → ∃ t, exec .init s = .next t ∧
      t = { s with
        store := t.store
        initDone := true
        ports := s.ports.modify s.cur fun p => { p with status := 0, busy := false } } ∧
      t.store.length = 10 * 2 ^ s.cfg.mu ∧
      ∀ k < 10 * 2 ^ s.cfg.mu, t.slotRec k =
        { lock := none, waiters := [], tagFrame := 0, tagSlot := k, numberPdus := 0,
          entries := List.replicate (s.build.nPdu + 1) ⟨0, List.replicate 64 0⟩ })

/-- R401: UL_LOCK_GET on a FREE uplink slot with room takes the lock, recovers a stale tag, writes the tag,
reserves the next entry with its type and returns its handle; it changes nothing else. (Who waits on a lock
is kept by the model, log 10.) -/
def Obligations.UlLockGetReservesAnEntry : Prop :=
  ∀ (s : State) (ptype frame slot : Nat),
    s.initDone = true → slot < s.spf → slot < 256 → slot < s.store.length → 1 ≤ ptype → ptype ≤ 4 →
    s.ulSlot slot = true → (s.slotRec slot).lock = none →
    let r := s.slotRec slot
    let stale : Bool := decide (r.numberPdus ≠ 0 ∧ (r.tagFrame ≠ frame ∨ r.tagSlot ≠ slot))
    let n := if stale then 0 else r.numberPdus
    n < s.build.nPdu →
    exec (.ulLockGet ptype frame slot) s = .next
      { s with
        store := s.unwait.store.set slot
          { lock := some s.cur
            waiters := r.waiters.filter fun q => q ≠ s.cur
            tagFrame := frame
            tagSlot := slot
            numberPdus := n + 1
            entries := r.entries.modify n fun e => { e with pduType := ptype } }
        errLog := if stale then s.errLog ++ [⟨1, frame, slot⟩] else s.errLog
        ports := s.ports.modify s.cur fun p =>
          { p with
            res0 := BitVec.ofNat 32 (256 * slot + n)
            status := if stale then 1 else 0
            busy := false } }

/-- R109, R401, R420: the null results. On a slot that is no uplink slot UL_LOCK_GET logs -1 and UL_ITER_GET
logs nothing; both return null with STATUS -1 and touch no lock, even one that another port holds. On a
FREE uplink slot that is full for the same frame UL_LOCK_GET logs -2, leaves the lock FREE and returns null
with STATUS -2. (Who waits on a lock is kept by the model, log 10.) -/
def Obligations.AcquiringCommandsReturnNull : Prop :=
  ∀ (s : State) (ptype frame slot : Nat),
    s.initDone = true → slot < s.spf →
    (s.ulSlot slot = false → 1 ≤ ptype → ptype ≤ 4 → exec (.ulLockGet ptype frame slot) s = .next
      { s with
        store := s.unwait.store
        errLog := s.errLog ++ [⟨-1, frame, slot⟩]
        ports := s.ports.modify s.cur fun p =>
          { p with res0 := 0xFFFFFFFF, status := -1, busy := false } }) ∧
    (s.ulSlot slot = false → exec (.ulIterGet frame slot) s = .next
      { s with
        store := s.unwait.store
        ports := s.ports.modify s.cur fun p =>
          { p with res0 := 0xFFFFFFFF, res1 := 0, status := -1, busy := false } }) ∧
    (s.ulSlot slot = true → slot < s.store.length → 1 ≤ ptype → ptype ≤ 4 →
      (s.slotRec slot).lock = none → (s.slotRec slot).tagFrame = frame → (s.slotRec slot).tagSlot = slot →
      s.build.nPdu ≤ (s.slotRec slot).numberPdus →
      exec (.ulLockGet ptype frame slot) s = .next
        { s with
          store := s.unwait.store
          errLog := s.errLog ++ [⟨-2, frame, slot⟩]
          ports := s.ports.modify s.cur fun p =>
            { p with res0 := 0xFFFFFFFF, status := -2, busy := false } })

/-- R402, R601, R1030: on an uplink slot whose lock the issuing port holds, both acquiring commands raise
SELF_DEADLOCK, as does TA_EXPIRY while its port holds any lock; where only other ports hold the lock, or for
TA_EXPIRY some lock, the command is held: BUSY stays 1, nothing changes, and the port is among the waiters of
each lock it waits for. (For TA_EXPIRY these are all the locks: log 10.) -/
def Obligations.AcquiringCommandsWaitOrDeadlock : Prop :=
  (∀ (s : State) (i : Instr) (ptype frame slot : Nat),
    (i = .ulLockGet ptype frame slot ∧ 1 ≤ ptype ∧ ptype ≤ 4) ∨ i = .ulIterGet frame slot →
    s.initDone = true → slot < s.spf → slot < s.store.length → s.ulSlot slot = true →
    ((s.slotRec slot).lock = some s.cur → exec i s = .next (s.raiseFault .selfDeadlock)) ∧
    ∀ q, (s.slotRec slot).lock = some q → q ≠ s.cur →
      ∃ t, exec i s = .next t ∧ t = { s with store := t.store } ∧
        (∀ k, SameSlot (s.slotRec k) (t.slotRec k)) ∧ s.cur ∈ (t.slotRec slot).waiters) ∧
  ∀ s : State, s.initDone = true →
    ((∃ k < s.spf, (s.slotRec k).lock = some s.cur) →
      exec .taExpiry s = .next (s.raiseFault .selfDeadlock)) ∧
    ((∀ k < s.spf, (s.slotRec k).lock ≠ some s.cur) → (∃ k < s.spf, (s.slotRec k).lock ≠ none) →
      ∃ t, exec .taExpiry s = .next t ∧ t = { s with store := t.store } ∧
        ∀ k, SameSlot (s.slotRec k) (t.slotRec k) ∧
          (k < s.spf → k < s.store.length → s.cur ∈ (t.slotRec k).waiters))

/-- R201, R307, R310, R404, R430, R431, R660: the checks of a handle operand, in their order: the null handle,
the slot and entry bounds, the lock, then the entry against the PDU count. PUSCH_BUILD first raises BAD_ARG for a
reserved byte or a frame or slot out of range in its grant (where R310 is checked is log 9), then DMEM_RANGE for
a `payload_addr` of 2^26 or more (log 20); it takes its handle from ARG0, whose null is 0xFFFFFFFF and whose bits
31:16 must be 0, and its entry must be a reserved PUSCH entry. -/
def Obligations.HandleChecksInOrder : Prop :=
  (∀ (s : State) (i : Instr) (clr h : Nat),
    i = .ulRelease clr h ∨ i = .ulRemoveLast h ∨ i = .ulPduWrite h ∨ i = .ulPduRead h →
    s.initDone = true →
    let k := bits h 15 8
    let e := bits h 7 0
    (h = 0xFFFF → exec i s = .next (s.raiseFault .fatalNull)) ∧
    (h ≠ 0xFFFF → s.spf ≤ k ∨ s.build.nPdu < e → exec i s = .next (s.raiseFault .badHandle)) ∧
    (h ≠ 0xFFFF → k < s.spf → e ≤ s.build.nPdu →
      ((s.slotRec k).lock ≠ some s.cur → exec i s = .next (s.raiseFault .lockNotHeld)) ∧
      ((s.slotRec k).lock = some s.cur →
        (i = .ulPduWrite h ∧ (s.slotRec k).numberPdus ≤ e) ∨ (i = .ulPduRead h ∧ (s.slotRec k).numberPdus < e) →
        exec i s = .next (s.raiseFault .badHandle)))) ∧
  ∀ (s : State) (daddr : Nat),
    s.initDone = true → RegionOk s (4 * daddr) 32 4 →
    let bad := memRead s.mem (4 * daddr + 0x13) 1 ≠ 0 ∨ memRead s.mem (4 * daddr + 0x1E) 2 ≠ 0 ∨
      1023 < memRead s.mem (4 * daddr + 0x06) 2 ∨ s.spf ≤ memRead s.mem (4 * daddr + 0x08) 1
    let payload := memRead s.mem (4 * daddr + 0x14) 4
    let h := s.port.arg0.toNat
    let k := bits h 15 8
    let e := bits h 7 0
    (bad → exec (.puschBuild daddr) s = .next (s.raiseFault .badArg)) ∧
    (¬bad → 2 ^ 26 ≤ payload → exec (.puschBuild daddr) s = .next (s.raiseFault .dmemRange)) ∧
    (¬bad → payload < 2 ^ 26 →
      (h = 0xFFFFFFFF ∨ h = 0xFFFF → exec (.puschBuild daddr) s = .next (s.raiseFault .fatalNull)) ∧
      (h ≠ 0xFFFFFFFF → h ≠ 0xFFFF → 2 ^ 16 ≤ h ∨ s.spf ≤ k ∨ s.build.nPdu < e →
        exec (.puschBuild daddr) s = .next (s.raiseFault .badHandle)) ∧
      (h < 0xFFFF → k < s.spf → e ≤ s.build.nPdu →
        ((s.slotRec k).lock ≠ some s.cur → exec (.puschBuild daddr) s = .next (s.raiseFault .lockNotHeld)) ∧
        ((s.slotRec k).lock = some s.cur →
          (s.slotRec k).numberPdus ≤ e ∨ ((s.slotRec k).entry e).pduType ≠ 3 →
          exec (.puschBuild daddr) s = .next (s.raiseFault .badHandle))))

/-- R403, R410, R412: UL_RELEASE by the holder frees the slot's lock, first clearing the PDU count when CLR is
1; UL_REMOVE_LAST by the holder takes one PDU off the count, or raises STORE_UNDERFLOW on a slot with none.
Neither changes anything else. -/
def Obligations.UlReleaseAndRemoveLast : Prop :=
  ∀ (s : State) (clr h : Nat),
    s.initDone = true → h ≠ 0xFFFF → bits h 15 8 < s.spf → bits h 7 0 ≤ s.build.nPdu →
    (s.slotRec (bits h 15 8)).lock = some s.cur →
    (exec (.ulRelease clr h) s = .next
      { s with
        store := s.store.modify (bits h 15 8) fun r =>
          { r with lock := none, numberPdus := if clr = 1 then 0 else r.numberPdus }
        ports := s.ports.modify s.cur fun p => { p with status := 0, busy := false } }) ∧
    ((s.slotRec (bits h 15 8)).numberPdus = 0 →
      exec (.ulRemoveLast h) s = .next (s.raiseFault .storeUnderflow)) ∧
    ((s.slotRec (bits h 15 8)).numberPdus ≠ 0 → exec (.ulRemoveLast h) s = .next
      { s with
        store := s.store.modify (bits h 15 8) fun r => { r with numberPdus := r.numberPdus - 1 }
        ports := s.ports.modify s.cur fun p => { p with status := 0, busy := false } })

/-- R420: UL_ITER_GET on a FREE uplink slot takes the lock, writes the END sentinel (type 5) after the last
PDU and returns the handle of entry 0 and the count; the frame is not looked at. (Who waits on a lock is
kept by the model, log 10.) -/
def Obligations.UlIterGetWritesTheSentinel : Prop :=
  ∀ (s : State) (frame slot : Nat),
    s.initDone = true → slot < s.spf → slot < 256 → slot < s.store.length → s.ulSlot slot = true →
    (s.slotRec slot).lock = none →
    let r := s.slotRec slot
    exec (.ulIterGet frame slot) s = .next
      { s with
        store := s.unwait.store.set slot
          { r with
            lock := some s.cur
            waiters := r.waiters.filter fun q => q ≠ s.cur
            entries := r.entries.modify r.numberPdus fun e => { e with pduType := 5 } }
        ports := s.ports.modify s.cur fun p =>
          { p with
            res0 := BitVec.ofNat 32 (256 * slot)
            res1 := BitVec.ofNat 32 r.numberPdus
            status := 0
            busy := false } }

/-- R430, R431: UL_PDU_WRITE by the holder copies 64 DMEM bytes into the payload of a reserved entry;
UL_PDU_READ by the holder writes the 64 payload bytes of an entry up to the count to DMEM and returns its
type. Neither changes anything else. -/
def Obligations.UlPduWriteAndReadCopyPayloads : Prop :=
  ∀ (s : State) (h : Nat),
    s.initDone = true → h ≠ 0xFFFF → bits h 15 8 < s.spf → bits h 7 0 ≤ s.build.nPdu →
    (s.slotRec (bits h 15 8)).lock = some s.cur → RegionOk s s.port.arg0.toNat 64 4 →
    let e := (s.slotRec (bits h 15 8)).entry (bits h 7 0)
    (bits h 7 0 < (s.slotRec (bits h 15 8)).numberPdus → exec (.ulPduWrite h) s = .next
      { s with
        store := s.store.modify (bits h 15 8) fun r =>
          { r with entries := r.entries.modify (bits h 7 0) fun e =>
              { e with payload := (List.range 64).map fun i => readByte s.mem (s.port.arg0.toNat + i) } }
        ports := s.ports.modify s.cur fun p => { p with status := 0, busy := false } }) ∧
    (bits h 7 0 ≤ (s.slotRec (bits h 15 8)).numberPdus → ∃ m, exec (.ulPduRead h) s = .next
      { s with
        mem := m
        ports := s.ports.modify s.cur fun p =>
          { p with res0 := BitVec.ofNat 32 e.pduType, status := 0, busy := false } } ∧
      (∀ i < 64, readByte m (s.port.arg0.toNat + i) = e.payload.getD i 0) ∧
      SameOutside s.mem m s.port.arg0.toNat 64)

/-- R217, R402, R450: once INIT has run, no command of another port changes the count, the tag, the entries
or the holder of a slot whose lock is held. -/
def Obligations.HeldSlotIsLeftToItsHolder : Prop :=
  ∀ (i : Instr) (s t : State) (k q : Nat),
    s.initDone = true → k < s.spf → (s.slotRec k).lock = some q → q ≠ s.cur → exec i s = .next t →
    SameSlot (s.slotRec k) (t.slotRec k)

/-! ### Logical channels and the MAC PDU (spec/41_lcp_bsr.md) -/

/-- R500: LC_CONFIG of a legal descriptor configures the channel, a new one with `Bj = 0`, a known one of
finite PBR with its credit cut to the new bucket, or releases it to all 0; nothing else changes. -/
def Obligations.LcConfigWritesTheChannel : Prop :=
  ∀ (s : State) (daddr : Nat),
    s.initDone = true → s.lc.length = 33 → RegionOk s (4 * daddr) 16 4 →
    let d := lcDescOfBytes (readBytes s.mem (4 * daddr) 16)
    let l := s.lcEntry d.lcid
    d.reserved = 0 → d.lcid ≤ 32 → 1 ≤ d.priority → d.priority ≤ 16 → d.lcg ≤ 7 → d.flags < 4 →
    d.bucketSize < 2 ^ 31 → d.frame ≤ 1023 → d.slot < s.spf →
    exec (.lcConfig daddr) s = .next
      { s with
        lc := s.lc.set d.lcid
          (if d.flags % 2 = 0 then ⟨false, 0, 0, false, 0, 0, 0, 0⟩
           else
            { configured := true
              priority := d.priority
              lcg := d.lcg
              pbrInf := decide (2 ≤ d.flags)
              pbrMs := d.pbrMs
              bucketSize := d.bucketSize
              bj := if l.configured then (if 2 ≤ d.flags then l.bj else min l.bj d.bucketSize) else 0
              lastUpdate := if l.configured then l.lastUpdate else d.frame * (10 * 2 ^ s.cfg.mu) + d.slot })
        ports := s.ports.modify s.cur fun p => { p with status := 0, busy := false } }

/-- R510, R511: BjUpdate credits a finite bucket by `pbr_ms` for each elapsed slot up to its cap, so an
unserved bucket never falls and never passes `bucket_size`. -/
def Obligations.CreditIsMonotoneAndCapped : Prop :=
  ∀ (spf now : Nat) (l : LcEntry), 0 < spf → l.lastUpdate < 1024 * spf → now < 1024 * spf →
    (l.credit spf now).lastUpdate = now ∧
    (l.pbrInf = true → (l.credit spf now).bj = l.bj) ∧
    (l.pbrInf = false →
      (l.credit spf now).bj = min (l.bj + l.pbrMs *
        ((if l.lastUpdate ≤ now then now - l.lastUpdate else now + 1024 * spf - l.lastUpdate) : Nat))
        l.bucketSize ∧
      (l.bj ≤ l.bucketSize →
        l.bj ≤ (l.credit spf now).bj ∧ (l.credit spf now).bj ≤ l.bucketSize))

/-- R514 to R517, R519, R520, R522 and log 19: what a channel asks for in the first and in a later pass; that a turn
asks the RLC for at most that, writes the subheader and the bytes it returns, takes them from the free space
and from a finite `Bj`, and clears the data status where nothing came or nothing is left; how a tier and a
pass go over the channels; that a pass runs exactly while more than 3 bytes are free and some channel has data,
and that a later pass in which nothing came is the last; that the passes always end: allowing more of them than
`buflen + 2` changes nothing; and that LCP_RUN writes at `out_addr` what they give. (That the answers are listed
ones, taken in order, is log 4; a status is asked again only after a request that returned a byte: log 16; an
SDU's length field: log 12.) -/
def Obligations.LcpPassesEnd : Prop :=
  (∀ (r : LcpProgress) (fuel : Nat), r.remain + 2 ≤ fuel → lcpPasses fuel 0 r = lcpPasses (r.remain + 2) 0 r) ∧
  (∀ (fuel pass : Nat) (r : LcpProgress),
    (r.remain ≤ 3 ∨ r.ds = [] → lcpPasses fuel pass r = r) ∧
    (3 < r.remain → r.ds ≠ [] →
      let t := lcpPass pass { r with served := 0 }
      lcpPasses (fuel + 1) pass r = if 1 ≤ pass ∧ t.served = 0 then t else lcpPasses fuel (pass + 1) t)) ∧
  (∀ (s t : State) (daddr : Nat), exec (.lcpRun daddr) s = .next t → s.halted = false → t.halted = false →
    let d := lcpDescOfBytes (readBytes s.mem (4 * daddr) 12)
    let u := s.creditAll (d.frame * s.spf + d.slot)
    let q := u.rlcStatuses u.channels
    let out := (lcpPasses (d.buflen + 2) 0 (lcpStart d.buflen q.1 (q.2.triggerEval q.1))).out
    readBytes t.mem d.outAddr out.length = out) ∧
  (∀ (pass : Nat) (r : LcpProgress),
    lcpPass pass r = (List.range 256).foldl (fun r P =>
      let T := r.ds.filter fun j => (r.st.lcEntry j).priority == P
      T.foldl (lcpTurn pass (((r.remain : Int) - 3 * T.length) / T.length)) r) r) ∧
  ∀ (pass : Nat) (ep : Int) (r : LcpProgress) (j : Nat),
    let l := r.st.lcEntry j
    let left := (r.remain : Int) - 3
    let cap := match r.st.build.firstPassCap with | .bj => l.bj | .pbr => (l.pbrMs : Int)
    let req :=
      if pass = 0 then (if l.pbrInf then left else min cap left)
      else if 1 ≤ ep then min ep left else left
    (r.remain ≤ 3 ∨ req ≤ 0 → lcpTurn pass ep r j = r) ∧
    (3 < r.remain → 0 < req → j < r.st.lc.length → ∃ (data : List Byte) (sz : Nat),
      (data.length : Int) ≤ req ∧
      (∀ a rest, r.st.rlc = a :: rest → data = a.data.take req.toNat) ∧
      let r' := lcpTurn pass ep r j
      let hdr : List Byte :=
        if data.length < 256 then [BitVec.ofNat 8 j, BitVec.ofNat 8 data.length]
        else [BitVec.ofNat 8 (0x40 + j), BitVec.ofNat 8 (data.length / 256), BitVec.ofNat 8 data.length]
      r'.st = { r.st with lc := r'.st.lc, rlc := r'.st.rlc, draws := r'.st.draws } ∧
      (data = [] → r'.st.lc = r.st.lc ∧ r'.out = r.out ∧ r'.remain = r.remain ∧ r'.served = r.served ∧
        r'.ds = r.ds.filter (· ≠ j)) ∧
      (data ≠ [] →
        (∀ a b rest, r.st.rlc = a :: b :: rest → sz = b.status.toNat) ∧
        r'.st.lc = r.st.lc.set j { l with bj := if l.pbrInf then l.bj else l.bj - data.length } ∧
        r'.out = r.out ++ hdr ++ data ∧ r'.remain + (hdr ++ data).length = r.remain ∧
        r'.served = r.served + data.length ∧ r'.ds = if 0 < sz then r.ds else r.ds.filter (· ≠ j)))

/-- R510, R513, R515, R518 to R520, R522 to R525, R550, R551: LCP_RUN on a legal descriptor ends
normally. The `buflen` bytes at `out_addr` are, in this order, one subheader and the data of each SDU served
(RES0), all of eligible channels with data; the BSR that the LCG totals of the second status queries and the
space left select (RES1); and padding, 0x3F and zeros. The first SDU comes from the first channel in
`(priority, lcid)` order whose request is positive. A finite `Bj` is credited and pays for every byte
served, `last_update` is the current slot (R501). The trigger is pending in RES1 bit 27 when it was before, or when
data comes where no LCG had any or for a better priority; it is cleared by a BSR; the totals are
remembered. With no room for a subheader and data nothing is served, and that is logged with STATUS 2. No
other byte and nothing else changes. (That the output may not overlap the descriptor is log 7; how answers
are listed is log 4; an SDU's length field is log 12.) -/
def Obligations.LcpRunBuildsOneMacPdu : Prop :=
  ∀ (s : State) (daddr : Nat),
    s.ShapeInv → s.LcInv → s.initDone = true → RegionOk s (4 * daddr) 12 4 →
    let d := lcpDescOfBytes (readBytes s.mem (4 * daddr) 12)
    let L := s.lcEntry
    let now := d.frame * s.spf + d.slot
    let chans := (List.range 33).filter fun j => (L j).configured
    let cred := fun j : Nat =>
      min ((L j).bj + (L j).pbrMs * (((now : Int) - (L j).lastUpdate) % (1024 * s.spf : Nat))) (L j).bucketSize
    let eligible := fun j : Nat => (L j).configured = true ∧ ((L j).pbrInf = true ∨ 0 < cred j)
    let totals := fun st : Nat → Nat =>
      (List.range 8).map fun g => ((chans.filter fun j => (L j).lcg == g).map st).sum
    let bests := fun st : Nat → Nat => (List.range 8).map fun g =>
      ((chans.filter fun j => (L j).lcg == g && decide (0 < st j)).map fun j => (L j).priority).foldl min 255
    d.reserved = 0 → d.frame ≤ 1023 → d.slot < s.spf → d.buflen ≠ 0 → RegionOk s d.outAddr d.buflen 1 →
    (d.outAddr + d.buflen ≤ 4 * daddr ∨ 4 * daddr + 12 ≤ d.outAddr) →
    ∃ (t : State) (st stF : Nat → Nat) (served : List (Nat × List Byte)),
      let body := served.flatMap fun x =>
        (if x.2.length < 256 then [BitVec.ofNat 8 x.1, BitVec.ofNat 8 x.2.length]
         else [BitVec.ofNat 8 (0x40 + x.1), BitVec.ofNat 8 (x.2.length / 256), BitVec.ofNat 8 x.2.length]) ++ x.2
      let room := d.buflen - body.length
      let ce := bsrBytes room (totals stF) (bests stF)
      let fmt := bsrFormat room (lcgsWithData (totals stF)).length
      let fresh := ∃ j ∈ chans, 0 < st j ∧ (s.prevLcgData = 0 ∨ (L j).priority < s.prevBestPrio)
      let aborted := d.buflen ≤ 3 ∧ ∃ j, eligible j ∧ 0 < st j
      exec (.lcpRun daddr) s = .next t ∧
      t = { s with
        mem := t.mem
        lc := t.lc
        bsrRegularPending := t.bsrRegularPending
        prevLcgData := t.prevLcgData
        prevBestPrio := t.prevBestPrio
        errLog := t.errLog
        rlc := t.rlc
        draws := t.draws
        ports := s.ports.modify s.cur fun p =>
          { p with res0 := t.port.res0, res1 := t.port.res1, status := t.port.status, busy := false } } ∧
      body.length ≤ d.buflen ∧
      readBytes t.mem d.outAddr d.buflen =
        body ++ ce ++ (if room = ce.length then [] else 0x3F :: List.replicate (room - ce.length - 1) 0) ∧
      SameOutside s.mem t.mem d.outAddr d.buflen ∧
      (∀ x ∈ served, eligible x.1 ∧ 0 < st x.1 ∧ x.2 ≠ [] ∧ x.2.length + 3 ≤ d.buflen) ∧
      (∀ (i j : Nat) (a : RlcAnswer), chans[i]? = some j → s.rlc[i]? = some a → st j = a.status.toNat) ∧
      (t.rlc ≠ [] → ∃ used, s.rlc = used ++ t.rlc ∧ (∀ x ∈ served, ∃ a ∈ used, x.2 <+: a.data) ∧
        ∀ i j, chans[i]? = some j →
          ∃ a, used[used.length - chans.length + i]? = some a ∧ stF j = a.status.toNat) ∧
      (∀ (j : Nat) (a : RlcAnswer),
        let req := if (L j).pbrInf then (d.buflen : Int) - 3 else
          min (match s.build.firstPassCap with | .bj => cred j | .pbr => ((L j).pbrMs : Int)) ((d.buflen : Int) - 3)
        let asks := fun i : Nat => eligible i ∧ 0 < st i ∧
          ((L i).pbrInf = true ∨ s.build.firstPassCap = .bj ∨ 0 < (L i).pbrMs)
        3 < d.buflen → asks j →
        (∀ i, asks i → i ≠ j → (L j).priority < (L i).priority ∨ ((L j).priority = (L i).priority ∧ j < i)) →
        s.rlc[chans.length]? = some a → a.data ≠ [] →
        served.head? = some (j, a.data.take req.toNat)) ∧
      (aborted → served = [] ∧ t.port.status = 2 ∧ t.errLog = s.errLog ++ [⟨2, d.frame, d.slot⟩]) ∧
      (¬aborted → t.port.status = 0 ∧ t.errLog = s.errLog) ∧
      t.port.res0 = BitVec.ofNat 32 body.length ∧
      (s.bsrRegularPending = true ∨ fresh →
        t.port.res1 = BitVec.ofNat 32 (2 ^ 28 * fmt + 2 ^ 27 + ce.length) ∧
        t.bsrRegularPending = decide (fmt = 0)) ∧
      (¬(s.bsrRegularPending = true ∨ fresh) →
        t.port.res1 = BitVec.ofNat 32 (2 ^ 28 * fmt + ce.length) ∧ t.bsrRegularPending = false) ∧
      (∀ g < 8, t.prevLcgData.getLsbD g = decide (0 < (totals stF).getD g 0)) ∧
      t.prevBestPrio = (bests stF).foldl min 255 ∧
      ∀ j, t.lcEntry j =
        if (L j).configured then
          { L j with
            bj := if (L j).pbrInf then (L j).bj
              else cred j - ((served.filter fun x => x.1 == j).map fun x => x.2.length).sum
            lastUpdate := now }
        else L j

/-- R512: with every bucket in its range, no LCP_RUN raises INT_RANGE. -/
def Obligations.IntRangeIsUnreachable : Prop :=
  ∀ (s : State) (daddr : Nat), s.LcInv → s.halted = false →
    exec (.lcpRun daddr) s ≠ .next (s.raiseFault .intRange)

/-- R541 to R544: the format, the size and the bytes of the BSR that the LCGs with data and `S` free bytes
select, row by row, and that it fits. A long BSR reports every LCG with data in its bitmap and, ascending, its
field; a truncated one reports the LCGs that come first by `(best, g)`. BS5 and BS8 are OPEN (log 14): 0
exactly for no data, non-decreasing, and in their width. -/
def Obligations.BsrFormatAndSize : Prop :=
  (∀ (S : Nat) (bytes best : List Nat), (∀ b ∈ best, b ≤ 255) →
    let gs := (List.range 8).filter fun g => decide (0 < bytes.getD g 0)
    let n := gs.length
    let ce := bsrBytes S bytes best
    let before := fun g h : Nat =>
      best.getD g 255 < best.getD h 255 ∨ (best.getD g 255 = best.getD h 255 ∧ g < h)
    let field := fun g : Nat => BitVec.ofNat 8 (bs8 (bytes.getD g 0))
    let bitmap := fun b : Byte => ∀ g < 8, b.getLsbD g = decide (g ∈ gs)
    ce.length ≤ S ∧ ce.length ≤ 11 ∧
    (n = 0 → bsrFormat S n = 0 ∧ ce = []) ∧
    (∀ g, gs = [g] → 2 ≤ S → bsrFormat S n = 1 ∧
      ce = [0x3D, BitVec.ofNat 8 (32 * g + bs5 (bytes.getD g 0))]) ∧
    (n = 1 → S < 2 → bsrFormat S n = 0 ∧ ce = []) ∧
    (2 ≤ n → 3 + n ≤ S → bsrFormat S n = 3 ∧ ∃ mb, bitmap mb ∧
      ce = 0x3E :: BitVec.ofNat 8 (1 + n) :: mb :: gs.map field) ∧
    (2 ≤ n → 4 ≤ S → S < 3 + n → bsrFormat S n = 4 ∧ ∃ (mb : Byte) (rs : List Nat), bitmap mb ∧
      rs.Sublist gs ∧ rs.length = S - 3 ∧ (∀ g ∈ rs, ∀ h ∈ gs, h ∉ rs → before g h) ∧
      ce = 0x3C :: BitVec.ofNat 8 (S - 2) :: mb :: rs.map field) ∧
    (∀ g ∈ gs, (∀ h ∈ gs, h ≠ g → before g h) → 2 ≤ n → S = 2 ∨ S = 3 → bsrFormat S n = 2 ∧
      ce = [0x3B, BitVec.ofNat 8 (32 * g + bs5 (bytes.getD g 0))]) ∧
    (2 ≤ n → S < 2 → bsrFormat S n = 0 ∧ ce = [])) ∧
  ∀ b b' : Nat, b ≤ b' → bs5 b ≤ bs5 b' ∧ bs8 b ≤ bs8 b' ∧ bs5 b ≤ 31 ∧ bs8 b ≤ 254 ∧
    (bs5 b = 0 ↔ b = 0) ∧ (bs8 b = 0 ↔ b = 0)

/-- R540: BSR_EVAL of a consistent descriptor writes the BSR that its totals and space select, returns its
format and size, and changes nothing else. (That the bytes written may not overlap the descriptor is
log 7.) -/
def Obligations.BsrEvalWritesTheBsr : Prop :=
  ∀ (s : State) (daddr : Nat),
    RegionOk s (4 * daddr) 48 4 →
    let d := bsrDescOfBytes (readBytes s.mem (4 * daddr) 48)
    let ce := bsrBytes d.space d.lcgBytes d.lcgBestPrio
    (∀ g < 8, (1 ≤ d.lcgBestPrio.getD g 255 ∧ d.lcgBestPrio.getD g 255 ≤ 16 ∧ 0 < d.lcgBytes.getD g 0) ∨
      (d.lcgBestPrio.getD g 255 = 255 ∧ d.lcgBytes.getD g 0 = 0)) →
    RegionOk s d.outAddr (min d.space 11) 1 →
    (d.outAddr + ce.length ≤ 4 * daddr ∨ 4 * daddr + 48 ≤ d.outAddr) →
    ∃ m, exec (.bsrEval daddr) s = .next
      { s with
        mem := m
        ports := s.ports.modify s.cur fun p =>
          { p with
            res0 := BitVec.ofNat 32 (bsrFormat d.space (lcgsWithData d.lcgBytes).length)
            res1 := BitVec.ofNat 32 ce.length
            status := 0
            busy := false } } ∧
      readBytes m d.outAddr ce.length = ce ∧ SameOutside s.mem m d.outAddr ce.length

/-! ### Grants, HARQ and the PUSCH PDU (spec/42_pusch_builder.md) -/

/-- R601, R602: TA_EXPIRY with every lock FREE clears every slot's count and resets the HARQ table, logs
(3, 0, 0) and keeps tags, entries and everything else. (Who waits on a lock is kept by the model, log 10.) -/
def Obligations.TaExpiryResetsStoreAndHarq : Prop :=
  ∀ s : State, s.initDone = true → (∀ k < s.spf, (s.slotRec k).lock = none) →
    exec .taExpiry s = .next
      { s with
        store := s.unwait.store.map fun r => { r with numberPdus := 0 }
        harq := List.replicate 16
          ⟨(match s.build.ndiAfterReset with | .zero => 0 | .none => 0xFF), 0, 0, 0, 0⟩
        errLog := s.errLog ++ [⟨3, 0, 0⟩]
        ports := s.ports.modify s.cur fun p => { p with status := 0, busy := false } }

/-- R307, R640: GRANT_TARGET of a grant whose K2 passes the assertion returns the frame and the slot K2 slots later,
the frame modulo 1024, and changes nothing else. An unsupported source, then a row, frame or slot out of
range, is logged and skipped with -3 or -6; a K2 that is not above `duration_rx_to_tx` is fatal. A reserved byte
that is not 0 raises BAD_ARG before all of these. (That a frame or slot out of range ends with -6 and not in R310's
BAD_ARG is log 9.) -/
def Obligations.GrantTargetFindsSkipsOrHalts : Prop :=
  ∀ (s : State) (daddr : Nat),
    s.initDone = true → RegionOk s (4 * daddr) 32 4 →
    let g := grantOfBytes (readBytes s.mem (4 * daddr) 32)
    let k2 := (s.cfg.tdraRow g.tdraIndex).k2 + if g.source = 2 ∨ g.source = 3 then s.cfg.msg3Delta else 0
    let n := g.rxFrame * s.spf + g.rxSlot + k2
    let bad := s.cfg.nTdra ≤ g.tdraIndex ∨ 1023 < g.rxFrame ∨ s.spf ≤ g.rxSlot
    let skip := fun (code : Int) => ({ s with
      errLog := s.errLog ++ [⟨code, g.rxFrame, g.rxSlot⟩]
      ports := s.ports.modify s.cur fun p =>
        { p with status := BitVec.ofInt 32 code, busy := false } } : State)
    let res := memRead s.mem (4 * daddr + 0x13) 1 ≠ 0 ∨ memRead s.mem (4 * daddr + 0x1E) 2 ≠ 0
    (res → exec (.grantTarget daddr) s = .next (s.raiseFault .badArg)) ∧
    (¬res → 3 < g.source → exec (.grantTarget daddr) s = .next (skip (-3))) ∧
    (¬res → g.source ≤ 3 → bad → exec (.grantTarget daddr) s = .next (skip (-6))) ∧
    (¬res → g.source ≤ 3 → ¬bad → k2 ≤ s.cfg.durationRxToTx →
      exec (.grantTarget daddr) s = .next (s.raiseFault .fatalK2)) ∧
    (¬res → g.source ≤ 3 → ¬bad → s.cfg.durationRxToTx < k2 → exec (.grantTarget daddr) s = .next
      { s with ports := s.ports.modify s.cur fun p =>
          { p with
            res0 := BitVec.ofNat 32 (n / s.spf % 1024)
            res1 := BitVec.ofNat 32 (n % s.spf)
            status := 0
            busy := false } })

/-- R660, R662: PUSCH_BUILD of a grant that passes R661, on a reserved PUSCH entry whose lock its port holds,
writes the PDU into that entry's payload, updates its HARQ process and returns the TBS and the bit map;
nothing else changes. What the PDU's fields are is BuiltPduHoldsItsFields, which grants pass is
PuschBuildSkipsABadGrant. (The check of `payload_addr` is log 20, where R310 is checked is log 9.) -/
def Obligations.PuschBuildFillsTheEntry : Prop :=
  ∀ (s : State) (daddr : Nat) (x : Alloc),
    s.initDone = true → RegionOk s (4 * daddr) 32 4 →
    let g := grantOfBytes (readBytes s.mem (4 * daddr) 32)
    let h := s.port.arg0.toNat
    let k := bits h 15 8
    let e := bits h 7 0
    let p := builtPdu s g x (s.slotRec k).tagFrame k
    memRead s.mem (4 * daddr + 0x13) 1 = 0 → memRead s.mem (4 * daddr + 0x1E) 2 = 0 →
    g.rxFrame ≤ 1023 → g.rxSlot < s.spf → g.payloadAddr < 2 ^ 26 → h < 0xFFFF → k < s.spf → e ≤ s.build.nPdu →
    (s.slotRec k).lock = some s.cur → e < (s.slotRec k).numberPdus → ((s.slotRec k).entry e).pduType = 3 →
    evalGrant s g = .ok x →
    exec (.puschBuild daddr) s = .next
      { s with
        store := s.store.modify k fun r =>
          { r with entries := r.entries.modify e fun y => { y with payload := pduBytes p } }
        harq := s.harq.modify g.pid fun y =>
          if g.newData y then ⟨g.ndi, x.tbsBytes, x.row.rate.val, x.row.qm.val, 0⟩
          else { y with round := min (y.round + 1) 255 }
        ports := s.ports.modify s.cur fun q =>
          { q with
            res0 := BitVec.ofNat 32 x.tbsBytes
            res1 := p.pduBitMap.setWidth 32
            status := 0
            busy := false } }

/-- R660, R661: PUSCH_BUILD of a grant that fails R661 ends with the status of the first of the eight checks that
fails (GrantFails and grantStatus list them: -3 for the source, -4 for the modulation order, -5 for a TBS of 0,
checked last, else -6), logs it under the entry's tag and slot, and changes neither the entry nor the HARQ table
nor anything else. A grant determines an allocation exactly when no check fails. (The check of `payload_addr` is
log 20, where R310 is checked is log 9; a SLIV that decodes to nothing, which no run reaches, fails check 6 by
log 25.) -/
def Obligations.PuschBuildSkipsABadGrant : Prop :=
  (∀ (s : State) (g : Grant), (∃ x, evalGrant s g = .ok x) ↔ ∀ n, ¬GrantFails s g n) ∧
  ∀ (s : State) (daddr n : Nat),
    s.initDone = true → RegionOk s (4 * daddr) 32 4 →
    let g := grantOfBytes (readBytes s.mem (4 * daddr) 32)
    let h := s.port.arg0.toNat
    let k := bits h 15 8
    let e := bits h 7 0
    memRead s.mem (4 * daddr + 0x13) 1 = 0 → memRead s.mem (4 * daddr + 0x1E) 2 = 0 →
    g.rxFrame ≤ 1023 → g.rxSlot < s.spf → g.payloadAddr < 2 ^ 26 → h < 0xFFFF → k < s.spf → e ≤ s.build.nPdu →
    (s.slotRec k).lock = some s.cur → e < (s.slotRec k).numberPdus → ((s.slotRec k).entry e).pduType = 3 →
    FirstGrantFailure s g n →
    exec (.puschBuild daddr) s = .next
      { s with
        errLog := s.errLog ++ [⟨grantStatus n, (s.slotRec k).tagFrame, k⟩]
        ports := s.ports.modify s.cur fun q =>
          { q with status := BitVec.ofInt 32 (grantStatus n), busy := false } }

/-- R603, R636, R661: a retransmission reuses the cached TBS and code rate of its HARQ process exactly, whatever
its MCS gives. Where the process has none, the grant fails with ERR_TBS_ZERO (-5) when it passes checks 1 to 7 of
R661, and else by the first of them that fails. -/
def Obligations.RetransmissionReusesTheCachedTbs : Prop :=
  ∀ (s : State) (g : Grant), g.source ≤ 1 → (s.harqEntry g.harqPid).lastNdi ≠ 255 →
    g.ndi = (s.harqEntry g.harqPid).lastNdi →
    (∀ x, evalGrant s g = .ok x → x.tbsBytes = (s.harqEntry g.harqPid).tbsBytes ∧ x.tbsBytes ≠ 0 ∧
      x.codeRate = (s.harqEntry g.harqPid).codeRate ∧
      (x.row = mcsLookup (g.tp s.cfg) (g.tableCode s.cfg) g.mcs)) ∧
    ((s.harqEntry g.harqPid).tbsBytes = 0 →
      ((∀ n < 8, ¬GrantFails s g n) → evalGrant s g = .error (-5)) ∧
      ∀ n < 8, FirstGrantFailure s g n → evalGrant s g = .error (grantStatus n))

/-- R620, R630, R634, R636, R645 to R650, R663: every field of the PDU that PUSCH_BUILD makes from an accepted
grant: the allocation, the MCS row, the TBS and code rate of new data and of a retransmission, the DMRS (R631
to R633), the PTRS where it is on, and the power, on which the grant's TPC has no effect. (P_PUSCH and the tables that the
spec leaves OPEN are opaque: log 13, log 15, log 18.) -/
def Obligations.BuiltPduHoldsItsFields : Prop :=
  ∀ (s : State) (g : Grant) (x : Alloc) (frame slot : Nat), evalGrant s g = .ok x →
    let c := s.cfg
    let p := builtPdu s g x frame slot
    let rar : Bool := g.source == 2 || g.source == 3
    let tp : Bool := if rar then c.msg3TpEnabled == 1 else c.tpEnabled == 1
    let layers := if g.source = 1 then g.nLayers else 1
    let tcode := if g.source = 1 then (if tp then c.mcsTableTp else c.mcsTable) else 0
    let pid := if rar then 0 else g.harqPid
    let h := s.harqEntry pid
    let row := mcsLookup tp tcode g.mcs
    let tr := c.tdraRow g.tdraIndex
    let S := p.startSymbol
    let len := p.nrOfSymbols
    let scid := if g.source = 1 then g.scid else 0
    let ap := if rar then c.msg3DmrsAddPos else c.dmrsAddPos
    let l0 := if tr.mappingType = 0 then c.dmrsTypeAPos else 0
    let ld := if tr.mappingType = 0 then S + len else len
    let front := if ap = 0 then [l0] else Config.dmrsPosTable tr.mappingType ld ap l0 (p.dmrsDouble == 1)
    let base := if tr.mappingType = 0 then 0 else S
    let nRe := min 156 (12 * (len : Int) -
      (if p.dmrsConfigType = 1 then 6 else 4) * p.numDmrsCdmGrpsNoData * popcount p.ulDmrsSymbPos) * p.rbSize
    let Lp : Option Nat :=
      if c.ptrsMcs1 = 255 then some 1 else if g.mcs < c.ptrsMcs1 then none
      else if g.mcs < c.ptrsMcs2 then some 4 else if g.mcs < c.ptrsMcs3 then some 2 else some 1
    let K : Option Nat :=
      if c.ptrsNrb0 = 0xFFFF then some 2 else if p.rbSize < c.ptrsNrb0 then none
      else if p.rbSize < c.ptrsNrb1 then some 2 else some 4
    let positions := ptrsSymbols x.dmrs (Lp.getD 0) S len
    let on : Bool := !tp && c.ptrsEnabled == 1 && decide (g.source ≤ 1) && Lp.isSome && K.isSome &&
      decide (positions ≠ 0)
    (∀ k, p.pduBitMap.getLsbD k =
      (k == 0 || (k == 1 && (g.harqAckBits != 0 || g.csiP1Bits != 0 || g.csiP2Bits != 0)) || (k == 2 && on) ||
        (k == 3 && tp))) ∧
    p.rnti = g.rnti ∧ p.bwpStart = c.bwpStart ∧ p.bwpSize = c.bwpSize ∧
    rivDecode g.riv c.bwpSize = some (p.rbStart, p.rbSize) ∧ slivDecode tr.sliv = some (S, len) ∧
    p.mcsIndex = g.mcs ∧ p.mcsTable = tcode ∧ p.modOrder = row.qm.val ∧ p.nLayers = layers ∧
    ((rar = true ∨ h.lastNdi = 255 ∨ g.ndi ≠ h.lastNdi) →
      p.codeRate = row.rate.val ∧ p.tbsBytes = tbsCompute nRe row.rate.val row.qm.val layers / 8) ∧
    (¬(rar = true ∨ h.lastNdi = 255 ∨ g.ndi ≠ h.lastNdi) →
      p.codeRate = h.codeRate ∧ p.tbsBytes = h.tbsBytes) ∧
    p.harqPid = pid ∧ p.ndi = g.ndi ∧ p.rv = g.rv ∧ p.transformPrecoding = (if tp then 1 else 0) ∧
    (g.source = 1 → p.dmrsConfigType = c.dmrsType ∧
      ∃ a, antPortLookup tp c.dmrsType c.dmrsMaxLength layers g.antennaPorts = some a ∧
        p.numDmrsCdmGrpsNoData = a.cdmPred.val + 1 ∧ p.dmrsPorts = a.ports.setWidth 16 ∧
        p.dmrsDouble = if a.double then 1 else 0) ∧
    (g.source ≠ 1 → p.dmrsConfigType = 1 ∧ p.dmrsPorts = 1 ∧ p.dmrsDouble = 0 ∧
      p.numDmrsCdmGrpsNoData = if tp = false ∧ len ≤ 2 then 1 else 2) ∧
    (∀ k, p.ulDmrsSymbPos.getLsbD k = decide (∃ q ∈ front, k = base + q ∨ (p.dmrsDouble = 1 ∧ k = base + (q + 1)))) ∧
    (∀ k, p.ulDmrsSymbPos.getLsbD k = true → S ≤ k ∧ k < S + len) ∧
    p.scid = scid ∧ p.ulDmrsScramblingId = (if scid = 1 then c.dmrsScramblingId1 else c.dmrsScramblingId0) ∧
    (on = true → K = some p.ptrsK ∧ Lp = some p.ptrsL ∧ p.ptrsSymbPos = positions ∧
      p.ptrsReOffset = c.ptrsReOffset) ∧
    (on = false → p.ptrsK = 0 ∧ p.ptrsL = 0 ∧ p.ptrsSymbPos = 0 ∧ p.ptrsReOffset = 0) ∧
    (∀ k, p.ptrsSymbPos.getLsbD k = true → S ≤ k ∧ k < S + len ∧ p.ulDmrsSymbPos.getLsbD k = false) ∧
    (on = true → p.ptrsL = 1 → ∀ k, S ≤ k → k < S + len →
      p.ptrsSymbPos.getLsbD k = !p.ulDmrsSymbPos.getLsbD k) ∧
    p.ptrsLayer = 0 ∧ p.tpmi = (if g.source = 1 then g.tpmi else 0) ∧ p.nAnt = c.nAnt ∧ p.tpcDelta = 0 ∧
    (∀ tpc, (builtPdu s { g with tpc := tpc } x frame slot).txPower = p.txPower) ∧
    p.mappingType = tr.mappingType ∧ p.harqAckBits = g.harqAckBits ∧ p.csiP1Bits = g.csiP1Bits ∧
    p.csiP2Bits = g.csiP2Bits ∧ p.payloadAddr = g.payloadAddr ∧ p.frame = frame ∧ p.slot = slot ∧
    p.reserved = 0

/-- R661, R663, R701: under a legal configuration the PDU that PUSCH_BUILD makes from an accepted grant passes
every check of MAP_PUSCH, where the DMRS comes from the tables the spec gives: additional position 0, and
for DCI 0_1 DMRS type 1 with maximum length 1. -/
def Obligations.BuiltPduPassesTheMapperChecks : Prop :=
  ∀ (s : State) (g : Grant) (x : Alloc) (frame slot : Nat),
    s.cfg.legal = true → s.cfg.dmrsAddPos = 0 → s.cfg.msg3DmrsAddPos = 0 →
    (g.source = 1 → s.cfg.dmrsType = 1 ∧ s.cfg.dmrsMaxLength = 1) → evalGrant s g = .ok x →
    (builtPdu s g x frame slot).legal s.cfg = true

/-- R638, R639: RIV and SLIV decoding give the one allocation whose encoding is the value, a RIV has none
exactly from `N (N + 1) / 2` on, and a SLIV none exactly when no allocation encodes to it. -/
def Obligations.RivAndSlivDecodeTheirEncodings : Prop :=
  (∀ n riv start len : Nat, 1 ≤ n →
    (rivDecode riv n = some (start, len) ↔
      1 ≤ len ∧ start + len ≤ n ∧
        riv = if len - 1 ≤ n / 2 then n * (len - 1) + start else n * (n - len + 1) + (n - 1 - start))) ∧
  (∀ n riv : Nat, 1 ≤ n → (rivDecode riv n = none ↔ n * (n + 1) / 2 ≤ riv)) ∧
  ∀ sliv start len : Nat,
    (slivDecode sliv = some (start, len) ↔
      1 ≤ len ∧ start + len ≤ 14 ∧
        sliv = if len - 1 ≤ 7 then 14 * (len - 1) + start else 14 * (14 - len + 1) + (14 - 1 - start))

/-- R635, R637: a TBS is a multiple of 8, 0 exactly when `N_info` is not positive, and otherwise at least
24 bits. -/
def Obligations.TbsIsAMultipleOfEight : Prop :=
  ∀ (nRe : Int) (cr qm layers : Nat),
    tbsCompute nRe cr qm layers % 8 = 0 ∧
    (tbsCompute nRe cr qm layers = 0 ↔ nRe ≤ 0 ∨ cr = 0 ∨ qm = 0 ∨ layers = 0) ∧
    (tbsCompute nRe cr qm layers ≠ 0 → 24 ≤ tbsCompute nRe cr qm layers)

/-- R342, R343, R502, R670: HARQ_READ writes the 12 bytes of a HARQ record and LC_READ the 24 bytes of a
channel's record, `Bj` in two's complement; each changes nothing else. -/
def Obligations.ReadCommandsWriteTheirRecords : Prop :=
  ∀ (s : State) (index : Nat), s.initDone = true →
    let a := s.port.arg0.toNat
    let h := s.harqEntry index
    let l := s.lcEntry index
    let after := fun m => ({ s with
      mem := m
      ports := s.ports.modify s.cur fun p => { p with status := 0, busy := false } } : State)
    (index ≤ 15 → RegionOk s a 12 4 → ∃ m, exec (.harqRead index) s = .next (after m) ∧
      memRead m a 4 = h.tbsBytes % 2 ^ 32 ∧ memRead m (a + 4) 2 = h.codeRate % 2 ^ 16 ∧
      memRead m (a + 6) 1 = h.modOrder % 2 ^ 8 ∧ memRead m (a + 7) 1 = h.lastNdi % 2 ^ 8 ∧
      memRead m (a + 8) 1 = h.round % 2 ^ 8 ∧ memRead m (a + 9) 3 = 0 ∧ SameOutside s.mem m a 12) ∧
    (index ≤ 32 → RegionOk s a 24 4 → ∃ m, exec (.lcRead index) s = .next (after m) ∧
      memRead m a 1 = (if l.configured then 1 else 0) ∧ memRead m (a + 1) 1 = l.priority % 2 ^ 8 ∧
      memRead m (a + 2) 1 = l.lcg % 2 ^ 8 ∧ memRead m (a + 3) 1 = (if l.pbrInf then 1 else 0) ∧
      memRead m (a + 4) 4 = l.pbrMs % 2 ^ 32 ∧ memRead m (a + 8) 4 = l.bucketSize % 2 ^ 32 ∧
      (memRead m (a + 12) 4 : Int) = l.bj % 2 ^ 32 ∧ memRead m (a + 16) 4 = l.lastUpdate % 2 ^ 32 ∧
      memRead m (a + 20) 4 = 0 ∧ SameOutside s.mem m a 24)

/-! ### The resource-element mapper (spec/43_re_mapper.md) -/

/-- R703, R710, R714, R720, R730, R741, R750, R751: MAP_PUSCH ends normally. At every RE of the allocation the
grid holds the DMRS value times its Walsh sign, the PTRS value, the next data value or 0, at the buffer
index of R710; every byte of DMEM outside those REs and all other state is left alone. (That the grid may not
overlap the descriptor or the PDU is log 7.) -/
def Obligations.MapPuschWritesTheAllocation : Prop :=
  ∀ (s : State) (daddr : Nat), MapReady s daddr →
    let d := mapDescAt s daddr
    let p := mapPduAt s daddr
    let b := mapBundleAt s daddr
    let adr := fun v l k => gridAddr d.gridAddr s.cfg.fftSize v l
      ((s.cfg.firstCarrierOffset + 12 * (p.bwpStart + p.rbStart) + k) % s.cfg.fftSize)
    ∃ m, exec (.mapPusch daddr) s = .next
      { s with
        mem := m
        ports := s.ports.modify s.cur fun q =>
          { q with
            res0 := BitVec.ofNat 32 b.nData
            res1 := BitVec.ofNat 32 (12 * p.rbSize * p.nrOfSymbols)
            status := 0
            busy := false } } ∧
      (∀ v l k, b.InAlloc v l k → readC16 m (adr v l k) =
        if b.isDataRe l k then readC16 s.mem (d.dataAddr.getD v 0 + 4 * b.taken l k)
        else if l ∈ b.dm then
          if reGroup b.dtype k = cdmGroup b.dtype (b.ports.getD v 0) then
            scaleC16 s.build.negMin (b.walshNegative (b.ports.getD v 0) k (ordinal l b.dm))
              (readC16 s.mem (d.dmrsAddr + 4 * (ordinal l b.dm * b.j + reSeq b.dtype k)))
          else ⟨0, 0⟩
        else if v = p.ptrsLayer then
          readC16 s.mem (d.ptrsAddr + 4 * (ordinal l b.pt * b.nPt + (k / 12 - kRefRb p) / p.ptrsK))
        else ⟨0, 0⟩) ∧
      ∀ a, (∀ v l k, b.InAlloc v l k → a < adr v l k ∨ adr v l k + 4 ≤ a) →
        readByte m a = readByte s.mem a

/-- R752: for a PDU that passes R701, the data REs that R730, R741 and R750 give to a layer number exactly
`N_data`. -/
def Obligations.DataResNumberNData : Prop :=
  ∀ (c : CfgRegs) (p : Pdu), p.legal c = true →
    (bundleOf c p).res.countP (fun x => (bundleOf c p).isDataRe x.1 x.2) = (bundleOf c p).nData

/-- R713: two MAP_PUSCH commands whose PDUs differ only in `bwp_start` or `rb_start`, whose configurations
differ only in `first_carrier_offset`, and whose streams hold the same values write the same values, read
in subcarrier order from each one's own start, whether or not one of them straddles the DC point. (The
spec marks R713 as its own inference from R710, R714 and R720. Both commands are taken to pass their checks,
log 7 among them.) -/
def Obligations.DcStraddlingIsTransparent : Prop :=
  ∀ (s s' t t' : State) (daddr daddr' : Nat),
    MapReady s daddr → MapReady s' daddr' → s'.build = s.build →
    s'.cfg = { s.cfg with firstCarrierOffset := s'.cfg.firstCarrierOffset } →
    mapPduAt s' daddr' = { mapPduAt s daddr with
      bwpStart := (mapPduAt s' daddr').bwpStart, rbStart := (mapPduAt s' daddr').rbStart } →
    (∀ v i, v < (mapPduAt s daddr).nLayers → i < (mapDescAt s daddr).dataLen →
      readC16 s'.mem ((mapDescAt s' daddr').dataAddr.getD v 0 + 4 * i) =
        readC16 s.mem ((mapDescAt s daddr).dataAddr.getD v 0 + 4 * i)) →
    (∀ i, i < (mapBundleAt s daddr).dm.length * (mapBundleAt s daddr).j →
      readC16 s'.mem ((mapDescAt s' daddr').dmrsAddr + 4 * i) =
        readC16 s.mem ((mapDescAt s daddr).dmrsAddr + 4 * i)) →
    (∀ i, i < (mapBundleAt s daddr).pt.length * (mapBundleAt s daddr).nPt →
      readC16 s'.mem ((mapDescAt s' daddr').ptrsAddr + 4 * i) =
        readC16 s.mem ((mapDescAt s daddr).ptrsAddr + 4 * i)) →
    exec (.mapPusch daddr) s = .next t → exec (.mapPusch daddr') s' = .next t' →
    ∀ v l k, (mapBundleAt s daddr).InAlloc v l k →
      readC16 t'.mem (gridAddr (mapDescAt s' daddr').gridAddr s'.cfg.fftSize v l
          ((startSc s'.cfg (mapPduAt s' daddr') + k) % s'.cfg.fftSize)) =
        readC16 t.mem (gridAddr (mapDescAt s daddr).gridAddr s.cfg.fftSize v l
          ((startSc s.cfg (mapPduAt s daddr) + k) % s.cfg.fftSize))

/-! ### Layer mapping, transform precoding and precoding (spec/44_precoding_transform.md) -/

/-- R810: LAYER_MAP puts input symbol `nu * i + v` at place `i` of layer `v`, returns the symbols per layer
and changes nothing else. With `n_in = 0` its addresses need only be 26-bit numbers aligned to 4. (That no layer may
overlap the descriptor is log 7, that R810 goes before R1012 with `n_in = 0` is log 27.) -/
def Obligations.LayerMapDealsOutTheSymbols : Prop :=
  ∀ (s : State) (daddr : Nat),
    RegionOk s (4 * daddr) 28 4 →
    let d := layerMapDescOfBytes (readBytes s.mem (4 * daddr) 28)
    let out := fun v => d.outAddr.getD v 0
    let n := d.nIn / d.nLayers
    d.reserved = 0 → 1 ≤ d.nLayers → d.nLayers ≤ 4 → d.nIn % d.nLayers = 0 →
    (d.nIn = 0 → (d.inAddr < 2 ^ 26 ∧ d.inAddr % 4 = 0) ∧ ∀ v < d.nLayers, out v < 2 ^ 26 ∧ out v % 4 = 0) →
    (d.nIn ≠ 0 → RegionOk s d.inAddr (4 * d.nIn) 4 ∧ ∀ v < d.nLayers, RegionOk s (out v) (4 * n) 4) →
    (∀ v < d.nLayers, overlaps (out v, 4 * n) (d.inAddr, 4 * d.nIn) = false ∧
      overlaps (out v, 4 * n) (4 * daddr, 28) = false ∧
      ∀ u < d.nLayers, u ≠ v → overlaps (out v, 4 * n) (out u, 4 * n) = false) →
    ∃ m, exec (.layerMap daddr) s = .next
      { s with
        mem := m
        ports := s.ports.modify s.cur fun p =>
          { p with res0 := BitVec.ofNat 32 n, status := 0, busy := false } } ∧
      (∀ v i, v < d.nLayers → i < n →
        readC16 m (out v + 4 * i) = readC16 s.mem (d.inAddr + 4 * (d.nLayers * i + v))) ∧
      ∀ a, (∀ v < d.nLayers, a < out v ∨ out v + 4 * n ≤ a) → readByte m a = readByte s.mem a

/-- R820, R821: TP_DFT of a PDU with transform precoding gives each block of `M = 12 * rb_size` values its
DFT_NUM, in place or not, returns the number of blocks and `M`, and changes nothing else. (That the output
may not overlap the descriptor or the PDU is log 7, that no flag must be set is log 8; DFT_NUM is OPEN.) -/
def Obligations.TpDftTransformsEachBlock : Prop :=
  ∀ (s : State) (daddr : Nat),
    RegionOk s (4 * daddr) 16 4 →
    let t := tpDescOfBytes (readBytes s.mem (4 * daddr) 16)
    let p := readPdu s t.pduAddr
    let M := 12 * p.rbSize
    RegionOk s t.pduAddr 64 4 → p.legal s.cfg = true → p.transformPrecoding = 1 →
    smooth235 M = true → t.n = M * (p.nrOfSymbols - popcount p.ulDmrsSymbPos) →
    RegionOk s t.inAddr (4 * t.n) 4 → RegionOk s t.outAddr (4 * t.n) 4 →
    (t.inAddr = t.outAddr ∨ overlaps (t.outAddr, 4 * t.n) (t.inAddr, 4 * t.n) = false) →
    overlaps (t.outAddr, 4 * t.n) (4 * daddr, 16) = false →
    overlaps (t.outAddr, 4 * t.n) (t.pduAddr, 64) = false →
    ∃ m, exec (.tpDft daddr) s = .next
      { s with
        mem := m
        ports := s.ports.modify s.cur fun q =>
          { q with
            res0 := BitVec.ofNat 32 (t.n / M)
            res1 := BitVec.ofNat 32 M
            status := 0
            busy := false } } ∧
      (∀ b k, b < t.n / M → k < M →
        readC16 m (t.outAddr + 4 * (b * M + k)) =
          Config.dftNum M (readC16s s.mem (t.inAddr + 4 * (b * M)) M) k) ∧
      SameOutside s.mem m t.outAddr (4 * t.n)

/-- R831 to R833: PRECODE ends normally. At every allocated RE antenna `a` holds, for TPMI 0, layer `a` or 0,
and otherwise PRECODE_NUM of row `a` of the matrix and the layer values; every byte outside those REs and
all other state is left alone. (That the whole antenna grid, also the bytes not written, may not overlap the
descriptor or the PDU is the model's choice, log 7; PRECODE_NUM is OPEN.) -/
def Obligations.PrecodeFillsTheAntennaGrid : Prop :=
  ∀ (s : State) (daddr : Nat),
    s.cfgValid = true → s.cfg.legal = true → RegionOk s (4 * daddr) 12 4 →
    let c := precodeDescOfBytes (readBytes s.mem (4 * daddr) 12)
    let p := readPdu s c.pduAddr
    let b := bundleOf s.cfg p
    let layer := fun v l k => readC16 s.mem (gridAddr c.layerGridAddr s.cfg.fftSize v l
      ((startSc s.cfg p + k) % s.cfg.fftSize))
    let adr := fun a l k => gridAddr c.antGridAddr s.cfg.fftSize a l
      ((startSc s.cfg p + k) % s.cfg.fftSize)
    RegionOk s c.pduAddr 64 4 → p.legal s.cfg = true → p.nAnt = s.cfg.nAnt → p.nLayers ≤ p.nAnt →
    (p.tpmi ≠ 0 → (wLookup p.nAnt p.nLayers p.tpmi).isSome = true) →
    RegionOk s c.layerGridAddr (4 * (p.nLayers * 14 * s.cfg.fftSize)) 4 →
    RegionOk s c.antGridAddr (4 * (p.nAnt * 14 * s.cfg.fftSize)) 4 →
    clearOf (c.antGridAddr, 4 * (p.nAnt * 14 * s.cfg.fftSize))
      [(c.layerGridAddr, 4 * (p.nLayers * 14 * s.cfg.fftSize)), (4 * daddr, 12), (c.pduAddr, 64)] = true →
    ∃ m, exec (.precode daddr) s = .next
      { s with
        mem := m
        ports := s.ports.modify s.cur fun q =>
          { q with
            res0 := BitVec.ofNat 32 p.nAnt
            res1 := BitVec.ofNat 32 (12 * p.rbSize * p.nrOfSymbols)
            status := 0
            busy := false } } ∧
      (∀ a l k, a < p.nAnt → b.InAlloc 0 l k →
        (p.tpmi = 0 → readC16 m (adr a l k) = if a < p.nLayers then layer a l k else ⟨0, 0⟩) ∧
        ∀ w, p.tpmi ≠ 0 → wLookup p.nAnt p.nLayers p.tpmi = some w →
          readC16 m (adr a l k) = Config.precodeNum ⟨w.norm, (List.range p.nLayers).map (w.entry a)⟩
            ((List.range p.nLayers).map fun v => layer v l k)) ∧
      ∀ x, (∀ a l k, a < p.nAnt → b.InAlloc 0 l k → x < adr a l k ∨ adr a l k + 4 ≤ x) →
        readByte m x = readByte s.mem x

/-! ### LLR kernels (spec/45_llr.md) -/

/-- R903, R904, R906, R910 to R912: each LLR command with `Q = 4, 6, 8` writes, for every RE, the `Q` values of
the recursion from that RE's inputs alone, returns `Q * nb_re`, and changes nothing else. (That the output
may not overlap the descriptor is log 7.) -/
def Obligations.LlrCommandsWriteTheRecursion : Prop :=
  ∀ (s : State) (daddr : Nat) (i : Instr) (nm : Nat),
    (i = .llr16Qam daddr ∧ nm = 1) ∨ (i = .llr64Qam daddr ∧ nm = 2) ∨ (i = .llr256Qam daddr ∧ nm = 3) →
    RegionOk s (4 * daddr) 24 4 →
    let d := llrDescOfBytes (readBytes s.mem (4 * daddr) 24)
    let Q := 2 * (nm + 1)
    d.nbRe ≤ 65535 → RegionOk s d.rxAddr (4 * d.nbRe) 4 →
    (∀ k < nm, RegionOk s (d.magAddr.getD k 0) (4 * d.nbRe) 4) → RegionOk s d.outAddr (2 * Q * d.nbRe) 2 →
    overlaps (d.outAddr, 2 * Q * d.nbRe) (4 * daddr, 24) = false →
    overlaps (d.outAddr, 2 * Q * d.nbRe) (d.rxAddr, 4 * d.nbRe) = false →
    (∀ k < nm, overlaps (d.outAddr, 2 * Q * d.nbRe) (d.magAddr.getD k 0, 4 * d.nbRe) = false) →
    ∃ m, exec i s = .next
      { s with
        mem := m
        ports := s.ports.modify s.cur fun p =>
          { p with res0 := BitVec.ofNat 32 (Q * d.nbRe), status := 0, busy := false } } ∧
      (∀ r < d.nbRe, ∃ v : Nat → C16,
        v 0 = readC16 s.mem (d.rxAddr + 4 * r) ∧
        (∀ k < nm, v (k + 1) =
          ⟨satSub (readC16 s.mem (d.magAddr.getD k 0 + 4 * r)).re (absI16 s.build.absMin (v k).re),
           satSub (readC16 s.mem (d.magAddr.getD k 0 + 4 * r)).im (absI16 s.build.absMin (v k).im)⟩) ∧
        ∀ k ≤ nm,
          memRead m (d.outAddr + 2 * (Q * r + 2 * k)) 2 = (v k).re.toNat ∧
          memRead m (d.outAddr + 2 * (Q * r + 2 * k + 1)) 2 = (v k).im.toNat) ∧
      SameOutside s.mem m d.outAddr (2 * Q * d.nbRe)

/-- R722, R900, R902: `sat_sub` is the exact difference clamped to an i16; `Abs` and `Neg` are the absolute
value and the negation but at -32768, where ABS_MIN and NEG_MIN say what they are. -/
def Obligations.SixteenBitArithmetic : Prop :=
  (∀ (a : BitVec 16) (b : Int), (satSub a b).toInt = max (-32768) (min 32767 (a.toInt - b))) ∧
  (∀ (m : AbsMin) (a : BitVec 16), a.toInt ≠ -32768 → absI16 m a = |a.toInt|) ∧
  absI16 .wrap 0x8000 = -32768 ∧ absI16 .sat 0x8000 = 32767 ∧ absI16 .exact 0x8000 = 32768 ∧
  (∀ (m : NegMin) (a : BitVec 16), a.toInt ≠ -32768 → (negI16 m a).toInt = -a.toInt) ∧
  (negI16 .wrap 0x8000).toInt = -32768 ∧ (negI16 .sat 0x8000).toInt = 32767
end

