-- ==== Sys2Proof/Laws/Memory.lean ====
section
/-! SUPPORT. Laws of DMEM: what a read gives after a write, and that every operation keeps the canonical form
and lists no byte it did not write. -/

namespace Sys2Proof.Machine

theorem readByte_insertCell (m : List Host.Cell) (a : Nat) (b : Byte) (c : Nat)
    (h : ∀ x ∈ m, x.1 ≠ a) :
    readByte (insertCell a b m) c = if c = a then b else readByte m c := by
  induction m with
  | nil => simp [insertCell, readByte, eq_comm]
  | cons x rest ih =>
    obtain ⟨k, v⟩ := x
    have hk : k ≠ a := h (k, v) (by simp)
    have hr : ∀ x ∈ rest, x.1 ≠ a := fun x hx => h x (by simp [hx])
    by_cases hak : a < k
    · by_cases hca : c = a
      · simp [insertCell, hak, readByte, hca]
      · have : a ≠ c := fun e => hca e.symm
        simp [insertCell, hak, readByte, hca, this]
    · simp only [insertCell, if_neg hak, readByte, ih hr]
      by_cases hkc : k = c
      · subst hkc; simp [hk]
      · simp [hkc]

theorem readByte_filter_ne (m : List Host.Cell) (a c : Nat) :
    readByte (m.filter fun x => x.1 ≠ a) c = if c = a then unlistedByte else readByte m c := by
  induction m with
  | nil => simp [readByte]
  | cons x rest ih =>
    obtain ⟨k, v⟩ := x
    by_cases hka : k = a
    · subst hka
      by_cases hck : c = k
      · subst hck; simpa using ih
      · have : k ≠ c := fun e => hck e.symm
        simpa [readByte, hck, this] using ih
    · by_cases hkc : k = c
      · subst hkc; simp [readByte, hka]
      · simpa [readByte, hka, hkc] using ih

/-- A byte reads as it was last written; every other byte is left alone. -/
theorem readByte_writeByte (m : List Host.Cell) (a : Nat) (b : Byte) (c : Nat) :
    readByte (writeByte m a b) c = if c = a then b else readByte m c := by
  unfold writeByte
  by_cases hb : b = unlistedByte
  · simp only [hb, if_true, readByte_filter_ne]
  · simp only [hb, if_false]
    rw [readByte_insertCell _ _ _ _ (by simp), readByte_filter_ne]
    by_cases hca : c = a <;> simp [hca]

/-- A byte string reads as it was written; every byte outside it is left alone. -/
theorem readByte_writeBytes (l : List Byte) (m : List Host.Cell) (a c : Nat) :
    readByte (writeBytes m a l) c =
      if a ≤ c ∧ c < a + l.length then l.getD (c - a) 0 else readByte m c := by
  induction l generalizing m a with
  | nil => rw [if_neg (by simp)]; rfl
  | cons b rest ih =>
    simp only [writeBytes, ih, readByte_writeByte, List.length_cons]
    by_cases h1 : c = a
    · subst h1; simp
    · by_cases h2 : a + 1 ≤ c ∧ c < a + 1 + rest.length
      · have h3 : a ≤ c ∧ c < a + (rest.length + 1) := by omega
        obtain ⟨d, hd⟩ : ∃ d, c - a = d + 1 := ⟨c - a - 1, by omega⟩
        have h4 : c - (a + 1) = d := by omega
        simp [h2, h3, hd, h4]
      · have h3 : ¬(a ≤ c ∧ c < a + (rest.length + 1)) := by omega
        rw [if_neg h2, if_neg h1, if_neg h3]

theorem readByte_writeBytes_of_outside {l : List Byte} {m : List Host.Cell} {a c : Nat}
    (h : c < a ∨ a + l.length ≤ c) : readByte (writeBytes m a l) c = readByte m c := by
  rw [readByte_writeBytes, if_neg (by omega)]

theorem readByte_writeBytes_at {l : List Byte} {m : List Host.Cell} {a i : Nat} (h : i < l.length) :
    readByte (writeBytes m a l) (a + i) = l.getD i 0 := by
  rw [readByte_writeBytes, if_pos (by omega)]; congr 1; omega

/-! ### The canonical form -/

theorem Memory.wf_iff (m : List Host.Cell) :
    Memory.wf m = true ↔ (∀ c ∈ m, c.2 ≠ unlistedByte) ∧ m.Pairwise fun x y => x.1 < y.1 := by
  induction m with
  | nil => simp [Memory.wf]
  | cons x rest ih =>
    obtain ⟨k, v⟩ := x
    cases rest with
    | nil => simp [Memory.wf]
    | cons y rest =>
      obtain ⟨k', v'⟩ := y
      simp only [Memory.wf, Bool.and_eq_true, decide_eq_true_eq, ih, List.forall_mem_cons,
        List.pairwise_cons]
      constructor
      · rintro ⟨⟨hv, hk⟩, ⟨hv', hr⟩, hp, hq⟩
        refine ⟨⟨hv, hv', hr⟩, ⟨hk, fun z hz => ?_⟩, hp, hq⟩
        exact lt_trans hk (hp z hz)
      · rintro ⟨⟨hv, hv', hr⟩, ⟨hk, _⟩, hp, hq⟩
        exact ⟨⟨hv, hk⟩, ⟨hv', hr⟩, hp, hq⟩

theorem mem_insertCell (m : List Host.Cell) (a : Nat) (b : Byte) (x : Host.Cell) :
    x ∈ insertCell a b m ↔ x = (a, b) ∨ x ∈ m := by
  induction m with
  | nil => simp [insertCell]
  | cons y rest ih =>
    obtain ⟨k, v⟩ := y
    by_cases h : a < k
    · simp [insertCell, h]
    · simp [insertCell, h, ih]; tauto

theorem insertCell_pairwise (m : List Host.Cell) (a : Nat) (b : Byte)
    (hm : m.Pairwise fun x y => x.1 < y.1) (ha : ∀ x ∈ m, x.1 ≠ a) :
    (insertCell a b m).Pairwise fun x y => x.1 < y.1 := by
  induction m with
  | nil => simp [insertCell]
  | cons y rest ih =>
    obtain ⟨k, v⟩ := y
    rw [List.pairwise_cons] at hm
    have hk : k ≠ a := ha (k, v) (by simp)
    by_cases h : a < k
    · simp only [insertCell, h, if_true, List.pairwise_cons]
      refine ⟨fun z hz => ?_, hm⟩
      rcases List.mem_cons.mp hz with rfl | hz
      · exact h
      · exact lt_trans h (hm.1 z hz)
    · simp only [insertCell, h, if_false, List.pairwise_cons]
      refine ⟨fun z hz => ?_, ih hm.2 fun x hx => ha x (by simp [hx])⟩
      rcases (mem_insertCell _ _ _ _).mp hz with rfl | hz
      · simp only; omega
      · exact hm.1 z hz

theorem writeByte_wf {m : List Host.Cell} (h : Memory.wf m = true) (a : Nat) (b : Byte) :
    Memory.wf (writeByte m a b) = true := by
  rw [Memory.wf_iff] at h ⊢
  have hp : (m.filter fun c => c.1 ≠ a).Pairwise fun x y => x.1 < y.1 := h.2.filter _
  have hv : ∀ c ∈ m.filter fun c => c.1 ≠ a, c.2 ≠ unlistedByte :=
    fun c hc => h.1 c (List.mem_of_mem_filter hc)
  unfold writeByte
  by_cases hb : b = unlistedByte
  · simp only [hb, if_true]; exact ⟨hv, hp⟩
  · simp only [hb, if_false]
    refine ⟨fun c hc => ?_, insertCell_pairwise _ _ _ hp (by simp)⟩
    rcases (mem_insertCell _ _ _ _).mp hc with rfl | hc
    · exact hb
    · exact hv c hc

theorem writeBytes_wf (l : List Byte) {m : List Host.Cell} (h : Memory.wf m = true) (a : Nat) :
    Memory.wf (writeBytes m a l) = true := by
  induction l generalizing m a with
  | nil => exact h
  | cons b rest ih => exact ih (writeByte_wf h a b) (a + 1)

theorem writeC16_wf {m : List Host.Cell} (h : Memory.wf m = true) (a : Nat) (x : C16) :
    Memory.wf (writeC16 m a x) = true := writeBytes_wf _ h a

theorem writeC16s_wf (l : List (Nat × C16)) {m : List Host.Cell} (h : Memory.wf m = true) :
    Memory.wf (writeC16s m l) = true := by
  induction l generalizing m with
  | nil => exact h
  | cons w rest ih => exact ih (writeC16_wf h w.1 w.2)

theorem memWrite_wf {m : List Host.Cell} (h : Memory.wf m = true) (a n v : Nat) :
    Memory.wf (memWrite m a n v) = true := writeBytes_wf _ h a

/-! ### No byte is listed that was not written -/

theorem mem_writeByte_addr {m : List Host.Cell} {a : Nat} {b : Byte} {c : Host.Cell}
    (h : c ∈ writeByte m a b) : c.1 = a ∨ c ∈ m := by
  unfold writeByte at h
  by_cases hb : b = unlistedByte
  · simp only [hb, if_true] at h; exact .inr (List.mem_of_mem_filter h)
  · simp only [hb, if_false] at h
    rcases (mem_insertCell _ _ _ _).mp h with rfl | h
    · exact .inl rfl
    · exact .inr (List.mem_of_mem_filter h)

theorem writeBytes_below {l : List Byte} {m : List Host.Cell} {a bound : Nat}
    (hm : ∀ c ∈ m, c.1 < bound) (ha : a + l.length ≤ bound) :
    ∀ c ∈ writeBytes m a l, c.1 < bound := by
  induction l generalizing m a with
  | nil => exact hm
  | cons b rest ih =>
    refine ih (fun c hc => ?_) (by simpa [Nat.add_assoc, Nat.add_comm, Nat.add_left_comm] using ha)
    rcases mem_writeByte_addr hc with h | h
    · simp only [List.length_cons] at ha; omega
    · exact hm c h

@[simp] theorem leBytes_length (n v : Nat) : (leBytes n v).length = n := by
  induction n generalizing v with
  | zero => rfl
  | succ n ih => simp [leBytes, ih]

@[simp] theorem c16Bytes_length (x : C16) : (c16Bytes x).length = 4 := by simp [c16Bytes]

theorem writeC16s_below {l : List (Nat × C16)} {m : List Host.Cell} {bound : Nat}
    (hm : ∀ c ∈ m, c.1 < bound) (hl : ∀ w ∈ l, w.1 + 4 ≤ bound) :
    ∀ c ∈ writeC16s m l, c.1 < bound := by
  induction l generalizing m with
  | nil => exact hm
  | cons w rest ih =>
    exact ih (writeBytes_below hm (by simpa using hl w (by simp))) fun x hx => hl x (by simp [hx])

/-! ### Little-endian numbers and samples (spec/20_memory.md R203, R205) -/

@[simp] theorem readBytes_length (m : List Host.Cell) (a n : Nat) : (readBytes m a n).length = n := by
  simp [readBytes]

theorem leNat_leBytes (n v : Nat) : leNat (leBytes n v) = v % 256 ^ n := by
  induction n generalizing v with
  | zero => simp [leBytes, leNat, Nat.mod_one]
  | succ n ih =>
    have h8 : (2 : Nat) ^ 8 = 256 := by norm_num
    rw [leBytes, leNat, ih, BitVec.toNat_ofNat, h8, pow_succ, Nat.mul_comm (256 ^ n) 256, Nat.mod_mul]

theorem readBytes_writeBytes (m : List Host.Cell) (a : Nat) (l : List Byte) :
    readBytes (writeBytes m a l) a l.length = l := by
  apply List.ext_getElem (by simp)
  intro i h1 h2
  simp [readBytes, readByte_writeBytes_at h2, List.getD_eq_getElem?_getD, h2]

theorem readBytes_writeBytes_of_disjoint {m : List Host.Cell} {a c n : Nat} {l : List Byte}
    (h : c + n ≤ a ∨ a + l.length ≤ c) : readBytes (writeBytes m a l) c n = readBytes m c n := by
  simp only [readBytes]
  refine List.map_congr_left fun i hi => readByte_writeBytes_of_outside ?_
  have := List.mem_range.mp hi
  omega

theorem readBytes_add (m : List Host.Cell) (a n k : Nat) :
    readBytes m a (n + k) = readBytes m a n ++ readBytes m (a + n) k := by
  simp [readBytes, List.range_add, Function.comp_def, Nat.add_assoc]

theorem readC16_writeC16 (m : List Host.Cell) (a : Nat) (x : C16) :
    readC16 (writeC16 m a x) a = x := by
  have h := readBytes_writeBytes m a (c16Bytes x)
  rw [c16Bytes_length, show (4 : Nat) = 2 + 2 from rfl, readBytes_add] at h
  have hl : (readBytes (writeBytes m a (c16Bytes x)) a 2).length = (leBytes 2 x.re.toNat).length := by
    simp
  obtain ⟨h1, h2⟩ := List.append_inj h hl
  have e : ∀ v : BitVec 16, BitVec.ofNat 16 (v.toNat % 256 ^ 2) = v := fun v => by
    have : v.toNat < 256 ^ 2 := v.isLt
    rw [Nat.mod_eq_of_lt this, BitVec.ofNat_toNat, BitVec.setWidth_eq]
  simp only [readC16, memRead, writeC16, h1, h2, leNat_leBytes, e]

theorem readC16_writeC16_of_disjoint {m : List Host.Cell} {a c : Nat} {x : C16}
    (h : c + 4 ≤ a ∨ a + 4 ≤ c) : readC16 (writeC16 m a x) c = readC16 m c := by
  have h1 : readBytes (writeBytes m a (c16Bytes x)) c 2 = readBytes m c 2 :=
    readBytes_writeBytes_of_disjoint (by simp; omega)
  have h2 : readBytes (writeBytes m a (c16Bytes x)) (c + 2) 2 = readBytes m (c + 2) 2 :=
    readBytes_writeBytes_of_disjoint (by simp; omega)
  simp [readC16, memRead, writeC16, h1, h2]

/-- Samples written elsewhere leave a byte alone. -/
theorem readByte_writeC16s_of_outside {l : List (Nat × C16)} {m : List Host.Cell} {c : Nat}
    (h : ∀ w ∈ l, c < w.1 ∨ w.1 + 4 ≤ c) : readByte (writeC16s m l) c = readByte m c := by
  induction l generalizing m with
  | nil => rfl
  | cons w rest ih =>
    have h1 : readByte (writeC16 m w.1 w.2) c = readByte m c :=
      readByte_writeBytes_of_outside (by simpa using h w (by simp))
    exact (ih fun x hx => h x (by simp [hx])).trans h1

/-- Samples written elsewhere leave a sample alone. -/
theorem readC16_writeC16s_of_disjoint {l : List (Nat × C16)} {m : List Host.Cell} {c : Nat}
    (h : ∀ w ∈ l, c + 4 ≤ w.1 ∨ w.1 + 4 ≤ c) : readC16 (writeC16s m l) c = readC16 m c := by
  induction l generalizing m with
  | nil => rfl
  | cons w rest ih =>
    exact (ih fun x hx => h x (by simp [hx])).trans (readC16_writeC16_of_disjoint (h w (by simp)))

/-- Samples written to addresses at least 4 apart all read back. -/
theorem readC16_writeC16s_of_mem {l : List (Nat × C16)} {m : List Host.Cell} {w : Nat × C16}
    (hp : l.Pairwise fun x y => x.1 + 4 ≤ y.1 ∨ y.1 + 4 ≤ x.1) (hw : w ∈ l) :
    readC16 (writeC16s m l) w.1 = w.2 := by
  induction l generalizing m with
  | nil => simp at hw
  | cons x rest ih =>
    rw [List.pairwise_cons] at hp
    rcases List.mem_cons.mp hw with rfl | hw
    · exact (readC16_writeC16s_of_disjoint (hp.1)).trans (readC16_writeC16 _ _ _)
    · exact ih hp.2 hw

end Sys2Proof.Machine
end

