-- ==== Sys2Proof/Laws/State.lean ====
section
/-! SUPPORT. What each named update of the state does to each field. -/

namespace Sys2Proof.Machine

variable (s : State)

/-! ### State.modPort -/

@[simp] theorem State.modPort_ports (f : Port → Port) :
    (State.modPort f s).ports = s.ports.modify s.cur f := rfl
@[simp] theorem State.modPort_cfg (f : Port → Port) : (State.modPort f s).cfg = s.cfg := rfl
@[simp] theorem State.modPort_cfgValid (f : Port → Port) :
    (State.modPort f s).cfgValid = s.cfgValid := rfl
@[simp] theorem State.modPort_initDone (f : Port → Port) :
    (State.modPort f s).initDone = s.initDone := rfl
@[simp] theorem State.modPort_halted (f : Port → Port) : (State.modPort f s).halted = s.halted := rfl
@[simp] theorem State.modPort_faultCode (f : Port → Port) :
    (State.modPort f s).faultCode = s.faultCode := rfl
@[simp] theorem State.modPort_faultPort (f : Port → Port) :
    (State.modPort f s).faultPort = s.faultPort := rfl
@[simp] theorem State.modPort_faultCmd (f : Port → Port) :
    (State.modPort f s).faultCmd = s.faultCmd := rfl
@[simp] theorem State.modPort_bsrRegularPending (f : Port → Port) :
    (State.modPort f s).bsrRegularPending = s.bsrRegularPending := rfl
@[simp] theorem State.modPort_prevLcgData (f : Port → Port) :
    (State.modPort f s).prevLcgData = s.prevLcgData := rfl
@[simp] theorem State.modPort_prevBestPrio (f : Port → Port) :
    (State.modPort f s).prevBestPrio = s.prevBestPrio := rfl
@[simp] theorem State.modPort_store (f : Port → Port) : (State.modPort f s).store = s.store := rfl
@[simp] theorem State.modPort_harq (f : Port → Port) : (State.modPort f s).harq = s.harq := rfl
@[simp] theorem State.modPort_lc (f : Port → Port) : (State.modPort f s).lc = s.lc := rfl
@[simp] theorem State.modPort_errLog (f : Port → Port) : (State.modPort f s).errLog = s.errLog := rfl
@[simp] theorem State.modPort_mem (f : Port → Port) : (State.modPort f s).mem = s.mem := rfl
@[simp] theorem State.modPort_build (f : Port → Port) : (State.modPort f s).build = s.build := rfl
@[simp] theorem State.modPort_cur (f : Port → Port) : (State.modPort f s).cur = s.cur := rfl
@[simp] theorem State.modPort_inputs (f : Port → Port) : (State.modPort f s).inputs = s.inputs := rfl
@[simp] theorem State.modPort_rlc (f : Port → Port) : (State.modPort f s).rlc = s.rlc := rfl
@[simp] theorem State.modPort_draws (f : Port → Port) : (State.modPort f s).draws = s.draws := rfl

/-! ### State.setRes0 -/

@[simp] theorem State.setRes0_ports (v : Word) :
    (State.setRes0 v s).ports = s.ports.modify s.cur fun p => { p with res0 := v } := rfl
@[simp] theorem State.setRes0_cfg (v : Word) : (State.setRes0 v s).cfg = s.cfg := rfl
@[simp] theorem State.setRes0_cfgValid (v : Word) : (State.setRes0 v s).cfgValid = s.cfgValid := rfl
@[simp] theorem State.setRes0_initDone (v : Word) : (State.setRes0 v s).initDone = s.initDone := rfl
@[simp] theorem State.setRes0_halted (v : Word) : (State.setRes0 v s).halted = s.halted := rfl
@[simp] theorem State.setRes0_faultCode (v : Word) : (State.setRes0 v s).faultCode = s.faultCode := rfl
@[simp] theorem State.setRes0_faultPort (v : Word) : (State.setRes0 v s).faultPort = s.faultPort := rfl
@[simp] theorem State.setRes0_faultCmd (v : Word) : (State.setRes0 v s).faultCmd = s.faultCmd := rfl
@[simp] theorem State.setRes0_bsrRegularPending (v : Word) :
    (State.setRes0 v s).bsrRegularPending = s.bsrRegularPending := rfl
@[simp] theorem State.setRes0_prevLcgData (v : Word) :
    (State.setRes0 v s).prevLcgData = s.prevLcgData := rfl
@[simp] theorem State.setRes0_prevBestPrio (v : Word) :
    (State.setRes0 v s).prevBestPrio = s.prevBestPrio := rfl
@[simp] theorem State.setRes0_store (v : Word) : (State.setRes0 v s).store = s.store := rfl
@[simp] theorem State.setRes0_harq (v : Word) : (State.setRes0 v s).harq = s.harq := rfl
@[simp] theorem State.setRes0_lc (v : Word) : (State.setRes0 v s).lc = s.lc := rfl
@[simp] theorem State.setRes0_errLog (v : Word) : (State.setRes0 v s).errLog = s.errLog := rfl
@[simp] theorem State.setRes0_mem (v : Word) : (State.setRes0 v s).mem = s.mem := rfl
@[simp] theorem State.setRes0_build (v : Word) : (State.setRes0 v s).build = s.build := rfl
@[simp] theorem State.setRes0_cur (v : Word) : (State.setRes0 v s).cur = s.cur := rfl
@[simp] theorem State.setRes0_inputs (v : Word) : (State.setRes0 v s).inputs = s.inputs := rfl
@[simp] theorem State.setRes0_rlc (v : Word) : (State.setRes0 v s).rlc = s.rlc := rfl
@[simp] theorem State.setRes0_draws (v : Word) : (State.setRes0 v s).draws = s.draws := rfl

/-! ### State.setRes1 -/

@[simp] theorem State.setRes1_ports (v : Word) :
    (State.setRes1 v s).ports = s.ports.modify s.cur fun p => { p with res1 := v } := rfl
@[simp] theorem State.setRes1_cfg (v : Word) : (State.setRes1 v s).cfg = s.cfg := rfl
@[simp] theorem State.setRes1_cfgValid (v : Word) : (State.setRes1 v s).cfgValid = s.cfgValid := rfl
@[simp] theorem State.setRes1_initDone (v : Word) : (State.setRes1 v s).initDone = s.initDone := rfl
@[simp] theorem State.setRes1_halted (v : Word) : (State.setRes1 v s).halted = s.halted := rfl
@[simp] theorem State.setRes1_faultCode (v : Word) : (State.setRes1 v s).faultCode = s.faultCode := rfl
@[simp] theorem State.setRes1_faultPort (v : Word) : (State.setRes1 v s).faultPort = s.faultPort := rfl
@[simp] theorem State.setRes1_faultCmd (v : Word) : (State.setRes1 v s).faultCmd = s.faultCmd := rfl
@[simp] theorem State.setRes1_bsrRegularPending (v : Word) :
    (State.setRes1 v s).bsrRegularPending = s.bsrRegularPending := rfl
@[simp] theorem State.setRes1_prevLcgData (v : Word) :
    (State.setRes1 v s).prevLcgData = s.prevLcgData := rfl
@[simp] theorem State.setRes1_prevBestPrio (v : Word) :
    (State.setRes1 v s).prevBestPrio = s.prevBestPrio := rfl
@[simp] theorem State.setRes1_store (v : Word) : (State.setRes1 v s).store = s.store := rfl
@[simp] theorem State.setRes1_harq (v : Word) : (State.setRes1 v s).harq = s.harq := rfl
@[simp] theorem State.setRes1_lc (v : Word) : (State.setRes1 v s).lc = s.lc := rfl
@[simp] theorem State.setRes1_errLog (v : Word) : (State.setRes1 v s).errLog = s.errLog := rfl
@[simp] theorem State.setRes1_mem (v : Word) : (State.setRes1 v s).mem = s.mem := rfl
@[simp] theorem State.setRes1_build (v : Word) : (State.setRes1 v s).build = s.build := rfl
@[simp] theorem State.setRes1_cur (v : Word) : (State.setRes1 v s).cur = s.cur := rfl
@[simp] theorem State.setRes1_inputs (v : Word) : (State.setRes1 v s).inputs = s.inputs := rfl
@[simp] theorem State.setRes1_rlc (v : Word) : (State.setRes1 v s).rlc = s.rlc := rfl
@[simp] theorem State.setRes1_draws (v : Word) : (State.setRes1 v s).draws = s.draws := rfl

/-! ### State.ret -/

@[simp] theorem State.ret_ports (v : Int) : (State.ret v s).ports = s.ports.modify s.cur fun p =>
      { p with status := BitVec.ofInt 32 v, busy := false } := rfl
@[simp] theorem State.ret_cfg (v : Int) : (State.ret v s).cfg = s.cfg := rfl
@[simp] theorem State.ret_cfgValid (v : Int) : (State.ret v s).cfgValid = s.cfgValid := rfl
@[simp] theorem State.ret_initDone (v : Int) : (State.ret v s).initDone = s.initDone := rfl
@[simp] theorem State.ret_halted (v : Int) : (State.ret v s).halted = s.halted := rfl
@[simp] theorem State.ret_faultCode (v : Int) : (State.ret v s).faultCode = s.faultCode := rfl
@[simp] theorem State.ret_faultPort (v : Int) : (State.ret v s).faultPort = s.faultPort := rfl
@[simp] theorem State.ret_faultCmd (v : Int) : (State.ret v s).faultCmd = s.faultCmd := rfl
@[simp] theorem State.ret_bsrRegularPending (v : Int) :
    (State.ret v s).bsrRegularPending = s.bsrRegularPending := rfl
@[simp] theorem State.ret_prevLcgData (v : Int) : (State.ret v s).prevLcgData = s.prevLcgData := rfl
@[simp] theorem State.ret_prevBestPrio (v : Int) : (State.ret v s).prevBestPrio = s.prevBestPrio := rfl
@[simp] theorem State.ret_store (v : Int) : (State.ret v s).store = s.store := rfl
@[simp] theorem State.ret_harq (v : Int) : (State.ret v s).harq = s.harq := rfl
@[simp] theorem State.ret_lc (v : Int) : (State.ret v s).lc = s.lc := rfl
@[simp] theorem State.ret_errLog (v : Int) : (State.ret v s).errLog = s.errLog := rfl
@[simp] theorem State.ret_mem (v : Int) : (State.ret v s).mem = s.mem := rfl
@[simp] theorem State.ret_build (v : Int) : (State.ret v s).build = s.build := rfl
@[simp] theorem State.ret_cur (v : Int) : (State.ret v s).cur = s.cur := rfl
@[simp] theorem State.ret_inputs (v : Int) : (State.ret v s).inputs = s.inputs := rfl
@[simp] theorem State.ret_rlc (v : Int) : (State.ret v s).rlc = s.rlc := rfl
@[simp] theorem State.ret_draws (v : Int) : (State.ret v s).draws = s.draws := rfl

/-! ### State.log -/

@[simp] theorem State.log_ports (v : Int) (f k : Nat) : (State.log v f k s).ports = s.ports := rfl
@[simp] theorem State.log_cfg (v : Int) (f k : Nat) : (State.log v f k s).cfg = s.cfg := rfl
@[simp] theorem State.log_cfgValid (v : Int) (f k : Nat) :
    (State.log v f k s).cfgValid = s.cfgValid := rfl
@[simp] theorem State.log_initDone (v : Int) (f k : Nat) :
    (State.log v f k s).initDone = s.initDone := rfl
@[simp] theorem State.log_halted (v : Int) (f k : Nat) : (State.log v f k s).halted = s.halted := rfl
@[simp] theorem State.log_faultCode (v : Int) (f k : Nat) :
    (State.log v f k s).faultCode = s.faultCode := rfl
@[simp] theorem State.log_faultPort (v : Int) (f k : Nat) :
    (State.log v f k s).faultPort = s.faultPort := rfl
@[simp] theorem State.log_faultCmd (v : Int) (f k : Nat) :
    (State.log v f k s).faultCmd = s.faultCmd := rfl
@[simp] theorem State.log_bsrRegularPending (v : Int) (f k : Nat) :
    (State.log v f k s).bsrRegularPending = s.bsrRegularPending := rfl
@[simp] theorem State.log_prevLcgData (v : Int) (f k : Nat) :
    (State.log v f k s).prevLcgData = s.prevLcgData := rfl
@[simp] theorem State.log_prevBestPrio (v : Int) (f k : Nat) :
    (State.log v f k s).prevBestPrio = s.prevBestPrio := rfl
@[simp] theorem State.log_store (v : Int) (f k : Nat) : (State.log v f k s).store = s.store := rfl
@[simp] theorem State.log_harq (v : Int) (f k : Nat) : (State.log v f k s).harq = s.harq := rfl
@[simp] theorem State.log_lc (v : Int) (f k : Nat) : (State.log v f k s).lc = s.lc := rfl
@[simp] theorem State.log_errLog (v : Int) (f k : Nat) :
    (State.log v f k s).errLog = s.errLog ++ [⟨v, f, k⟩] := rfl
@[simp] theorem State.log_mem (v : Int) (f k : Nat) : (State.log v f k s).mem = s.mem := rfl
@[simp] theorem State.log_build (v : Int) (f k : Nat) : (State.log v f k s).build = s.build := rfl
@[simp] theorem State.log_cur (v : Int) (f k : Nat) : (State.log v f k s).cur = s.cur := rfl
@[simp] theorem State.log_inputs (v : Int) (f k : Nat) : (State.log v f k s).inputs = s.inputs := rfl
@[simp] theorem State.log_rlc (v : Int) (f k : Nat) : (State.log v f k s).rlc = s.rlc := rfl
@[simp] theorem State.log_draws (v : Int) (f k : Nat) : (State.log v f k s).draws = s.draws := rfl

/-! ### State.modSlot -/

@[simp] theorem State.modSlot_ports (k : Nat) (f : SlotRec → SlotRec) :
    (State.modSlot k f s).ports = s.ports := rfl
@[simp] theorem State.modSlot_cfg (k : Nat) (f : SlotRec → SlotRec) :
    (State.modSlot k f s).cfg = s.cfg := rfl
@[simp] theorem State.modSlot_cfgValid (k : Nat) (f : SlotRec → SlotRec) :
    (State.modSlot k f s).cfgValid = s.cfgValid := rfl
@[simp] theorem State.modSlot_initDone (k : Nat) (f : SlotRec → SlotRec) :
    (State.modSlot k f s).initDone = s.initDone := rfl
@[simp] theorem State.modSlot_halted (k : Nat) (f : SlotRec → SlotRec) :
    (State.modSlot k f s).halted = s.halted := rfl
@[simp] theorem State.modSlot_faultCode (k : Nat) (f : SlotRec → SlotRec) :
    (State.modSlot k f s).faultCode = s.faultCode := rfl
@[simp] theorem State.modSlot_faultPort (k : Nat) (f : SlotRec → SlotRec) :
    (State.modSlot k f s).faultPort = s.faultPort := rfl
@[simp] theorem State.modSlot_faultCmd (k : Nat) (f : SlotRec → SlotRec) :
    (State.modSlot k f s).faultCmd = s.faultCmd := rfl
@[simp] theorem State.modSlot_bsrRegularPending (k : Nat) (f : SlotRec → SlotRec) :
    (State.modSlot k f s).bsrRegularPending = s.bsrRegularPending := rfl
@[simp] theorem State.modSlot_prevLcgData (k : Nat) (f : SlotRec → SlotRec) :
    (State.modSlot k f s).prevLcgData = s.prevLcgData := rfl
@[simp] theorem State.modSlot_prevBestPrio (k : Nat) (f : SlotRec → SlotRec) :
    (State.modSlot k f s).prevBestPrio = s.prevBestPrio := rfl
@[simp] theorem State.modSlot_store (k : Nat) (f : SlotRec → SlotRec) :
    (State.modSlot k f s).store = s.store.modify k f := rfl
@[simp] theorem State.modSlot_harq (k : Nat) (f : SlotRec → SlotRec) :
    (State.modSlot k f s).harq = s.harq := rfl
@[simp] theorem State.modSlot_lc (k : Nat) (f : SlotRec → SlotRec) :
    (State.modSlot k f s).lc = s.lc := rfl
@[simp] theorem State.modSlot_errLog (k : Nat) (f : SlotRec → SlotRec) :
    (State.modSlot k f s).errLog = s.errLog := rfl
@[simp] theorem State.modSlot_mem (k : Nat) (f : SlotRec → SlotRec) :
    (State.modSlot k f s).mem = s.mem := rfl
@[simp] theorem State.modSlot_build (k : Nat) (f : SlotRec → SlotRec) :
    (State.modSlot k f s).build = s.build := rfl
@[simp] theorem State.modSlot_cur (k : Nat) (f : SlotRec → SlotRec) :
    (State.modSlot k f s).cur = s.cur := rfl
@[simp] theorem State.modSlot_inputs (k : Nat) (f : SlotRec → SlotRec) :
    (State.modSlot k f s).inputs = s.inputs := rfl
@[simp] theorem State.modSlot_rlc (k : Nat) (f : SlotRec → SlotRec) :
    (State.modSlot k f s).rlc = s.rlc := rfl
@[simp] theorem State.modSlot_draws (k : Nat) (f : SlotRec → SlotRec) :
    (State.modSlot k f s).draws = s.draws := rfl

/-! ### State.release -/

@[simp] theorem State.release_ports (k : Nat) : (State.release k s).ports = s.ports := rfl
@[simp] theorem State.release_cfg (k : Nat) : (State.release k s).cfg = s.cfg := rfl
@[simp] theorem State.release_cfgValid (k : Nat) : (State.release k s).cfgValid = s.cfgValid := rfl
@[simp] theorem State.release_initDone (k : Nat) : (State.release k s).initDone = s.initDone := rfl
@[simp] theorem State.release_halted (k : Nat) : (State.release k s).halted = s.halted := rfl
@[simp] theorem State.release_faultCode (k : Nat) : (State.release k s).faultCode = s.faultCode := rfl
@[simp] theorem State.release_faultPort (k : Nat) : (State.release k s).faultPort = s.faultPort := rfl
@[simp] theorem State.release_faultCmd (k : Nat) : (State.release k s).faultCmd = s.faultCmd := rfl
@[simp] theorem State.release_bsrRegularPending (k : Nat) :
    (State.release k s).bsrRegularPending = s.bsrRegularPending := rfl
@[simp] theorem State.release_prevLcgData (k : Nat) :
    (State.release k s).prevLcgData = s.prevLcgData := rfl
@[simp] theorem State.release_prevBestPrio (k : Nat) :
    (State.release k s).prevBestPrio = s.prevBestPrio := rfl
@[simp] theorem State.release_store (k : Nat) :
    (State.release k s).store = s.store.modify k fun r => { r with lock := none } := rfl
@[simp] theorem State.release_harq (k : Nat) : (State.release k s).harq = s.harq := rfl
@[simp] theorem State.release_lc (k : Nat) : (State.release k s).lc = s.lc := rfl
@[simp] theorem State.release_errLog (k : Nat) : (State.release k s).errLog = s.errLog := rfl
@[simp] theorem State.release_mem (k : Nat) : (State.release k s).mem = s.mem := rfl
@[simp] theorem State.release_build (k : Nat) : (State.release k s).build = s.build := rfl
@[simp] theorem State.release_cur (k : Nat) : (State.release k s).cur = s.cur := rfl
@[simp] theorem State.release_inputs (k : Nat) : (State.release k s).inputs = s.inputs := rfl
@[simp] theorem State.release_rlc (k : Nat) : (State.release k s).rlc = s.rlc := rfl
@[simp] theorem State.release_draws (k : Nat) : (State.release k s).draws = s.draws := rfl

/-! ### State.unwait -/

@[simp] theorem State.unwait_ports : (State.unwait s).ports = s.ports := rfl
@[simp] theorem State.unwait_cfg : (State.unwait s).cfg = s.cfg := rfl
@[simp] theorem State.unwait_cfgValid : (State.unwait s).cfgValid = s.cfgValid := rfl
@[simp] theorem State.unwait_initDone : (State.unwait s).initDone = s.initDone := rfl
@[simp] theorem State.unwait_halted : (State.unwait s).halted = s.halted := rfl
@[simp] theorem State.unwait_faultCode : (State.unwait s).faultCode = s.faultCode := rfl
@[simp] theorem State.unwait_faultPort : (State.unwait s).faultPort = s.faultPort := rfl
@[simp] theorem State.unwait_faultCmd : (State.unwait s).faultCmd = s.faultCmd := rfl
@[simp] theorem State.unwait_bsrRegularPending :
    (State.unwait s).bsrRegularPending = s.bsrRegularPending := rfl
@[simp] theorem State.unwait_prevLcgData : (State.unwait s).prevLcgData = s.prevLcgData := rfl
@[simp] theorem State.unwait_prevBestPrio : (State.unwait s).prevBestPrio = s.prevBestPrio := rfl
@[simp] theorem State.unwait_store :
    (State.unwait s).store = s.store.map fun r => { r with waiters := r.waiters.filter fun q => q ≠ s.cur } := rfl
@[simp] theorem State.unwait_harq : (State.unwait s).harq = s.harq := rfl
@[simp] theorem State.unwait_lc : (State.unwait s).lc = s.lc := rfl
@[simp] theorem State.unwait_errLog : (State.unwait s).errLog = s.errLog := rfl
@[simp] theorem State.unwait_mem : (State.unwait s).mem = s.mem := rfl
@[simp] theorem State.unwait_build : (State.unwait s).build = s.build := rfl
@[simp] theorem State.unwait_cur : (State.unwait s).cur = s.cur := rfl
@[simp] theorem State.unwait_inputs : (State.unwait s).inputs = s.inputs := rfl
@[simp] theorem State.unwait_rlc : (State.unwait s).rlc = s.rlc := rfl
@[simp] theorem State.unwait_draws : (State.unwait s).draws = s.draws := rfl

/-! ### State.raiseFault -/

@[simp] theorem State.raiseFault_ports (v : FaultCode) :
    (State.raiseFault v s).ports = s.ports.modify s.cur fun p => { p with busy := false } := rfl
@[simp] theorem State.raiseFault_cfg (v : FaultCode) : (State.raiseFault v s).cfg = s.cfg := rfl
@[simp] theorem State.raiseFault_cfgValid (v : FaultCode) :
    (State.raiseFault v s).cfgValid = s.cfgValid := rfl
@[simp] theorem State.raiseFault_initDone (v : FaultCode) :
    (State.raiseFault v s).initDone = s.initDone := rfl
@[simp] theorem State.raiseFault_halted (v : FaultCode) : (State.raiseFault v s).halted = true := rfl
@[simp] theorem State.raiseFault_faultCode (v : FaultCode) :
    (State.raiseFault v s).faultCode = v.code := rfl
@[simp] theorem State.raiseFault_faultPort (v : FaultCode) :
    (State.raiseFault v s).faultPort = BitVec.ofNat 8 s.cur := rfl
@[simp] theorem State.raiseFault_faultCmd (v : FaultCode) :
    (State.raiseFault v s).faultCmd = s.port.cmd := rfl
@[simp] theorem State.raiseFault_bsrRegularPending (v : FaultCode) :
    (State.raiseFault v s).bsrRegularPending = s.bsrRegularPending := rfl
@[simp] theorem State.raiseFault_prevLcgData (v : FaultCode) :
    (State.raiseFault v s).prevLcgData = s.prevLcgData := rfl
@[simp] theorem State.raiseFault_prevBestPrio (v : FaultCode) :
    (State.raiseFault v s).prevBestPrio = s.prevBestPrio := rfl
@[simp] theorem State.raiseFault_store (v : FaultCode) : (State.raiseFault v s).store = s.store := rfl
@[simp] theorem State.raiseFault_harq (v : FaultCode) : (State.raiseFault v s).harq = s.harq := rfl
@[simp] theorem State.raiseFault_lc (v : FaultCode) : (State.raiseFault v s).lc = s.lc := rfl
@[simp] theorem State.raiseFault_errLog (v : FaultCode) : (State.raiseFault v s).errLog = s.errLog := rfl
@[simp] theorem State.raiseFault_mem (v : FaultCode) : (State.raiseFault v s).mem = s.mem := rfl
@[simp] theorem State.raiseFault_build (v : FaultCode) : (State.raiseFault v s).build = s.build := rfl
@[simp] theorem State.raiseFault_cur (v : FaultCode) : (State.raiseFault v s).cur = s.cur := rfl
@[simp] theorem State.raiseFault_inputs (v : FaultCode) : (State.raiseFault v s).inputs = s.inputs := rfl
@[simp] theorem State.raiseFault_rlc (v : FaultCode) : (State.raiseFault v s).rlc = s.rlc := rfl
@[simp] theorem State.raiseFault_draws (v : FaultCode) : (State.raiseFault v s).draws = s.draws := rfl

/-! ### State.skipGrant -/

@[simp] theorem State.skipGrant_ports (v : Int) (f k : Nat) : (State.skipGrant v f k s).ports = s.ports.modify s.cur fun p =>
      { p with status := BitVec.ofInt 32 v, busy := false } := rfl
@[simp] theorem State.skipGrant_cfg (v : Int) (f k : Nat) : (State.skipGrant v f k s).cfg = s.cfg := rfl
@[simp] theorem State.skipGrant_cfgValid (v : Int) (f k : Nat) :
    (State.skipGrant v f k s).cfgValid = s.cfgValid := rfl
@[simp] theorem State.skipGrant_initDone (v : Int) (f k : Nat) :
    (State.skipGrant v f k s).initDone = s.initDone := rfl
@[simp] theorem State.skipGrant_halted (v : Int) (f k : Nat) :
    (State.skipGrant v f k s).halted = s.halted := rfl
@[simp] theorem State.skipGrant_faultCode (v : Int) (f k : Nat) :
    (State.skipGrant v f k s).faultCode = s.faultCode := rfl
@[simp] theorem State.skipGrant_faultPort (v : Int) (f k : Nat) :
    (State.skipGrant v f k s).faultPort = s.faultPort := rfl
@[simp] theorem State.skipGrant_faultCmd (v : Int) (f k : Nat) :
    (State.skipGrant v f k s).faultCmd = s.faultCmd := rfl
@[simp] theorem State.skipGrant_bsrRegularPending (v : Int) (f k : Nat) :
    (State.skipGrant v f k s).bsrRegularPending = s.bsrRegularPending := rfl
@[simp] theorem State.skipGrant_prevLcgData (v : Int) (f k : Nat) :
    (State.skipGrant v f k s).prevLcgData = s.prevLcgData := rfl
@[simp] theorem State.skipGrant_prevBestPrio (v : Int) (f k : Nat) :
    (State.skipGrant v f k s).prevBestPrio = s.prevBestPrio := rfl
@[simp] theorem State.skipGrant_store (v : Int) (f k : Nat) :
    (State.skipGrant v f k s).store = s.store := rfl
@[simp] theorem State.skipGrant_harq (v : Int) (f k : Nat) :
    (State.skipGrant v f k s).harq = s.harq := rfl
@[simp] theorem State.skipGrant_lc (v : Int) (f k : Nat) : (State.skipGrant v f k s).lc = s.lc := rfl
@[simp] theorem State.skipGrant_errLog (v : Int) (f k : Nat) :
    (State.skipGrant v f k s).errLog = s.errLog ++ [⟨v, f, k⟩] := rfl
@[simp] theorem State.skipGrant_mem (v : Int) (f k : Nat) : (State.skipGrant v f k s).mem = s.mem := rfl
@[simp] theorem State.skipGrant_build (v : Int) (f k : Nat) :
    (State.skipGrant v f k s).build = s.build := rfl
@[simp] theorem State.skipGrant_cur (v : Int) (f k : Nat) : (State.skipGrant v f k s).cur = s.cur := rfl
@[simp] theorem State.skipGrant_inputs (v : Int) (f k : Nat) :
    (State.skipGrant v f k s).inputs = s.inputs := rfl
@[simp] theorem State.skipGrant_rlc (v : Int) (f k : Nat) : (State.skipGrant v f k s).rlc = s.rlc := rfl
@[simp] theorem State.skipGrant_draws (v : Int) (f k : Nat) :
    (State.skipGrant v f k s).draws = s.draws := rfl

/-! ### State.charge -/

@[simp] theorem State.charge_ports (j k : Nat) : (State.charge j k s).ports = s.ports := rfl
@[simp] theorem State.charge_cfg (j k : Nat) : (State.charge j k s).cfg = s.cfg := rfl
@[simp] theorem State.charge_cfgValid (j k : Nat) : (State.charge j k s).cfgValid = s.cfgValid := rfl
@[simp] theorem State.charge_initDone (j k : Nat) : (State.charge j k s).initDone = s.initDone := rfl
@[simp] theorem State.charge_halted (j k : Nat) : (State.charge j k s).halted = s.halted := rfl
@[simp] theorem State.charge_faultCode (j k : Nat) : (State.charge j k s).faultCode = s.faultCode := rfl
@[simp] theorem State.charge_faultPort (j k : Nat) : (State.charge j k s).faultPort = s.faultPort := rfl
@[simp] theorem State.charge_faultCmd (j k : Nat) : (State.charge j k s).faultCmd = s.faultCmd := rfl
@[simp] theorem State.charge_bsrRegularPending (j k : Nat) :
    (State.charge j k s).bsrRegularPending = s.bsrRegularPending := rfl
@[simp] theorem State.charge_prevLcgData (j k : Nat) :
    (State.charge j k s).prevLcgData = s.prevLcgData := rfl
@[simp] theorem State.charge_prevBestPrio (j k : Nat) :
    (State.charge j k s).prevBestPrio = s.prevBestPrio := rfl
@[simp] theorem State.charge_store (j k : Nat) : (State.charge j k s).store = s.store := rfl
@[simp] theorem State.charge_harq (j k : Nat) : (State.charge j k s).harq = s.harq := rfl
@[simp] theorem State.charge_lc (j k : Nat) :
    (State.charge j k s).lc = s.lc.modify j fun l => { l with bj := if l.pbrInf then l.bj else l.bj - k } := rfl
@[simp] theorem State.charge_errLog (j k : Nat) : (State.charge j k s).errLog = s.errLog := rfl
@[simp] theorem State.charge_mem (j k : Nat) : (State.charge j k s).mem = s.mem := rfl
@[simp] theorem State.charge_build (j k : Nat) : (State.charge j k s).build = s.build := rfl
@[simp] theorem State.charge_cur (j k : Nat) : (State.charge j k s).cur = s.cur := rfl
@[simp] theorem State.charge_inputs (j k : Nat) : (State.charge j k s).inputs = s.inputs := rfl
@[simp] theorem State.charge_rlc (j k : Nat) : (State.charge j k s).rlc = s.rlc := rfl
@[simp] theorem State.charge_draws (j k : Nat) : (State.charge j k s).draws = s.draws := rfl

/-! ### State.creditAll -/

@[simp] theorem State.creditAll_ports (n : Nat) : (State.creditAll n s).ports = s.ports := rfl
@[simp] theorem State.creditAll_cfg (n : Nat) : (State.creditAll n s).cfg = s.cfg := rfl
@[simp] theorem State.creditAll_cfgValid (n : Nat) : (State.creditAll n s).cfgValid = s.cfgValid := rfl
@[simp] theorem State.creditAll_initDone (n : Nat) : (State.creditAll n s).initDone = s.initDone := rfl
@[simp] theorem State.creditAll_halted (n : Nat) : (State.creditAll n s).halted = s.halted := rfl
@[simp] theorem State.creditAll_faultCode (n : Nat) :
    (State.creditAll n s).faultCode = s.faultCode := rfl
@[simp] theorem State.creditAll_faultPort (n : Nat) :
    (State.creditAll n s).faultPort = s.faultPort := rfl
@[simp] theorem State.creditAll_faultCmd (n : Nat) : (State.creditAll n s).faultCmd = s.faultCmd := rfl
@[simp] theorem State.creditAll_bsrRegularPending (n : Nat) :
    (State.creditAll n s).bsrRegularPending = s.bsrRegularPending := rfl
@[simp] theorem State.creditAll_prevLcgData (n : Nat) :
    (State.creditAll n s).prevLcgData = s.prevLcgData := rfl
@[simp] theorem State.creditAll_prevBestPrio (n : Nat) :
    (State.creditAll n s).prevBestPrio = s.prevBestPrio := rfl
@[simp] theorem State.creditAll_store (n : Nat) : (State.creditAll n s).store = s.store := rfl
@[simp] theorem State.creditAll_harq (n : Nat) : (State.creditAll n s).harq = s.harq := rfl
@[simp] theorem State.creditAll_lc (n : Nat) :
    (State.creditAll n s).lc = s.lc.map fun l => if l.configured then l.credit s.spf n else l := rfl
@[simp] theorem State.creditAll_errLog (n : Nat) : (State.creditAll n s).errLog = s.errLog := rfl
@[simp] theorem State.creditAll_mem (n : Nat) : (State.creditAll n s).mem = s.mem := rfl
@[simp] theorem State.creditAll_build (n : Nat) : (State.creditAll n s).build = s.build := rfl
@[simp] theorem State.creditAll_cur (n : Nat) : (State.creditAll n s).cur = s.cur := rfl
@[simp] theorem State.creditAll_inputs (n : Nat) : (State.creditAll n s).inputs = s.inputs := rfl
@[simp] theorem State.creditAll_rlc (n : Nat) : (State.creditAll n s).rlc = s.rlc := rfl
@[simp] theorem State.creditAll_draws (n : Nat) : (State.creditAll n s).draws = s.draws := rfl

/-! ### State.triggerRemember -/

@[simp] theorem State.triggerRemember_ports (b e : List Nat) :
    (State.triggerRemember b e s).ports = s.ports := rfl
@[simp] theorem State.triggerRemember_cfg (b e : List Nat) :
    (State.triggerRemember b e s).cfg = s.cfg := rfl
@[simp] theorem State.triggerRemember_cfgValid (b e : List Nat) :
    (State.triggerRemember b e s).cfgValid = s.cfgValid := rfl
@[simp] theorem State.triggerRemember_initDone (b e : List Nat) :
    (State.triggerRemember b e s).initDone = s.initDone := rfl
@[simp] theorem State.triggerRemember_halted (b e : List Nat) :
    (State.triggerRemember b e s).halted = s.halted := rfl
@[simp] theorem State.triggerRemember_faultCode (b e : List Nat) :
    (State.triggerRemember b e s).faultCode = s.faultCode := rfl
@[simp] theorem State.triggerRemember_faultPort (b e : List Nat) :
    (State.triggerRemember b e s).faultPort = s.faultPort := rfl
@[simp] theorem State.triggerRemember_faultCmd (b e : List Nat) :
    (State.triggerRemember b e s).faultCmd = s.faultCmd := rfl
@[simp] theorem State.triggerRemember_bsrRegularPending (b e : List Nat) :
    (State.triggerRemember b e s).bsrRegularPending = s.bsrRegularPending := rfl
@[simp] theorem State.triggerRemember_prevLcgData (b e : List Nat) :
    (State.triggerRemember b e s).prevLcgData = lcgBitmap b := rfl
@[simp] theorem State.triggerRemember_prevBestPrio (b e : List Nat) :
    (State.triggerRemember b e s).prevBestPrio = e.foldl min 255 := rfl
@[simp] theorem State.triggerRemember_store (b e : List Nat) :
    (State.triggerRemember b e s).store = s.store := rfl
@[simp] theorem State.triggerRemember_harq (b e : List Nat) :
    (State.triggerRemember b e s).harq = s.harq := rfl
@[simp] theorem State.triggerRemember_lc (b e : List Nat) :
    (State.triggerRemember b e s).lc = s.lc := rfl
@[simp] theorem State.triggerRemember_errLog (b e : List Nat) :
    (State.triggerRemember b e s).errLog = s.errLog := rfl
@[simp] theorem State.triggerRemember_mem (b e : List Nat) :
    (State.triggerRemember b e s).mem = s.mem := rfl
@[simp] theorem State.triggerRemember_build (b e : List Nat) :
    (State.triggerRemember b e s).build = s.build := rfl
@[simp] theorem State.triggerRemember_cur (b e : List Nat) :
    (State.triggerRemember b e s).cur = s.cur := rfl
@[simp] theorem State.triggerRemember_inputs (b e : List Nat) :
    (State.triggerRemember b e s).inputs = s.inputs := rfl
@[simp] theorem State.triggerRemember_rlc (b e : List Nat) :
    (State.triggerRemember b e s).rlc = s.rlc := rfl
@[simp] theorem State.triggerRemember_draws (b e : List Nat) :
    (State.triggerRemember b e s).draws = s.draws := rfl

/-! ### State.pokeDmem -/

@[simp] theorem State.pokeDmem_ports (a : Nat) (b : Byte) : (State.pokeDmem a b s).ports = s.ports := rfl
@[simp] theorem State.pokeDmem_cfg (a : Nat) (b : Byte) : (State.pokeDmem a b s).cfg = s.cfg := rfl
@[simp] theorem State.pokeDmem_cfgValid (a : Nat) (b : Byte) :
    (State.pokeDmem a b s).cfgValid = s.cfgValid := rfl
@[simp] theorem State.pokeDmem_initDone (a : Nat) (b : Byte) :
    (State.pokeDmem a b s).initDone = s.initDone := rfl
@[simp] theorem State.pokeDmem_halted (a : Nat) (b : Byte) :
    (State.pokeDmem a b s).halted = s.halted := rfl
@[simp] theorem State.pokeDmem_faultCode (a : Nat) (b : Byte) :
    (State.pokeDmem a b s).faultCode = s.faultCode := rfl
@[simp] theorem State.pokeDmem_faultPort (a : Nat) (b : Byte) :
    (State.pokeDmem a b s).faultPort = s.faultPort := rfl
@[simp] theorem State.pokeDmem_faultCmd (a : Nat) (b : Byte) :
    (State.pokeDmem a b s).faultCmd = s.faultCmd := rfl
@[simp] theorem State.pokeDmem_bsrRegularPending (a : Nat) (b : Byte) :
    (State.pokeDmem a b s).bsrRegularPending = s.bsrRegularPending := rfl
@[simp] theorem State.pokeDmem_prevLcgData (a : Nat) (b : Byte) :
    (State.pokeDmem a b s).prevLcgData = s.prevLcgData := rfl
@[simp] theorem State.pokeDmem_prevBestPrio (a : Nat) (b : Byte) :
    (State.pokeDmem a b s).prevBestPrio = s.prevBestPrio := rfl
@[simp] theorem State.pokeDmem_store (a : Nat) (b : Byte) : (State.pokeDmem a b s).store = s.store := rfl
@[simp] theorem State.pokeDmem_harq (a : Nat) (b : Byte) : (State.pokeDmem a b s).harq = s.harq := rfl
@[simp] theorem State.pokeDmem_lc (a : Nat) (b : Byte) : (State.pokeDmem a b s).lc = s.lc := rfl
@[simp] theorem State.pokeDmem_errLog (a : Nat) (b : Byte) :
    (State.pokeDmem a b s).errLog = s.errLog := rfl
@[simp] theorem State.pokeDmem_mem (a : Nat) (b : Byte) :
    (State.pokeDmem a b s).mem = writeByte s.mem a b := rfl
@[simp] theorem State.pokeDmem_build (a : Nat) (b : Byte) : (State.pokeDmem a b s).build = s.build := rfl
@[simp] theorem State.pokeDmem_cur (a : Nat) (b : Byte) : (State.pokeDmem a b s).cur = s.cur := rfl
@[simp] theorem State.pokeDmem_inputs (a : Nat) (b : Byte) :
    (State.pokeDmem a b s).inputs = s.inputs := rfl
@[simp] theorem State.pokeDmem_rlc (a : Nat) (b : Byte) : (State.pokeDmem a b s).rlc = s.rlc := rfl
@[simp] theorem State.pokeDmem_draws (a : Nat) (b : Byte) : (State.pokeDmem a b s).draws = s.draws := rfl

/-! ### State.setArg -/

@[simp] theorem State.setArg_cfg (p : Nat) (k : Fin 4) (v : Word) :
    (State.setArg p k v s).cfg = s.cfg := rfl
@[simp] theorem State.setArg_cfgValid (p : Nat) (k : Fin 4) (v : Word) :
    (State.setArg p k v s).cfgValid = s.cfgValid := rfl
@[simp] theorem State.setArg_initDone (p : Nat) (k : Fin 4) (v : Word) :
    (State.setArg p k v s).initDone = s.initDone := rfl
@[simp] theorem State.setArg_halted (p : Nat) (k : Fin 4) (v : Word) :
    (State.setArg p k v s).halted = s.halted := rfl
@[simp] theorem State.setArg_faultCode (p : Nat) (k : Fin 4) (v : Word) :
    (State.setArg p k v s).faultCode = s.faultCode := rfl
@[simp] theorem State.setArg_faultPort (p : Nat) (k : Fin 4) (v : Word) :
    (State.setArg p k v s).faultPort = s.faultPort := rfl
@[simp] theorem State.setArg_faultCmd (p : Nat) (k : Fin 4) (v : Word) :
    (State.setArg p k v s).faultCmd = s.faultCmd := rfl
@[simp] theorem State.setArg_bsrRegularPending (p : Nat) (k : Fin 4) (v : Word) :
    (State.setArg p k v s).bsrRegularPending = s.bsrRegularPending := rfl
@[simp] theorem State.setArg_prevLcgData (p : Nat) (k : Fin 4) (v : Word) :
    (State.setArg p k v s).prevLcgData = s.prevLcgData := rfl
@[simp] theorem State.setArg_prevBestPrio (p : Nat) (k : Fin 4) (v : Word) :
    (State.setArg p k v s).prevBestPrio = s.prevBestPrio := rfl
@[simp] theorem State.setArg_store (p : Nat) (k : Fin 4) (v : Word) :
    (State.setArg p k v s).store = s.store := rfl
@[simp] theorem State.setArg_harq (p : Nat) (k : Fin 4) (v : Word) :
    (State.setArg p k v s).harq = s.harq := rfl
@[simp] theorem State.setArg_lc (p : Nat) (k : Fin 4) (v : Word) :
    (State.setArg p k v s).lc = s.lc := rfl
@[simp] theorem State.setArg_errLog (p : Nat) (k : Fin 4) (v : Word) :
    (State.setArg p k v s).errLog = s.errLog := rfl
@[simp] theorem State.setArg_mem (p : Nat) (k : Fin 4) (v : Word) :
    (State.setArg p k v s).mem = s.mem := rfl
@[simp] theorem State.setArg_build (p : Nat) (k : Fin 4) (v : Word) :
    (State.setArg p k v s).build = s.build := rfl
@[simp] theorem State.setArg_cur (p : Nat) (k : Fin 4) (v : Word) :
    (State.setArg p k v s).cur = s.cur := rfl
@[simp] theorem State.setArg_inputs (p : Nat) (k : Fin 4) (v : Word) :
    (State.setArg p k v s).inputs = s.inputs := rfl
@[simp] theorem State.setArg_rlc (p : Nat) (k : Fin 4) (v : Word) :
    (State.setArg p k v s).rlc = s.rlc := rfl
@[simp] theorem State.setArg_draws (p : Nat) (k : Fin 4) (v : Word) :
    (State.setArg p k v s).draws = s.draws := rfl

/-! ### Derived reads -/

@[simp] theorem State.modPort_spf (f : Port → Port) : (State.modPort f s).spf = s.spf := rfl
@[simp] theorem State.modPort_slotRec (f : Port → Port) (i : Nat) : (State.modPort f s).slotRec i = s.slotRec i := rfl
@[simp] theorem State.modPort_lcEntry (f : Port → Port) (i : Nat) : (State.modPort f s).lcEntry i = s.lcEntry i := rfl
@[simp] theorem State.setRes0_spf (v : Word) : (State.setRes0 v s).spf = s.spf := rfl
@[simp] theorem State.setRes0_slotRec (v : Word) (i : Nat) : (State.setRes0 v s).slotRec i = s.slotRec i := rfl
@[simp] theorem State.setRes0_lcEntry (v : Word) (i : Nat) : (State.setRes0 v s).lcEntry i = s.lcEntry i := rfl
@[simp] theorem State.setRes1_spf (v : Word) : (State.setRes1 v s).spf = s.spf := rfl
@[simp] theorem State.setRes1_slotRec (v : Word) (i : Nat) : (State.setRes1 v s).slotRec i = s.slotRec i := rfl
@[simp] theorem State.setRes1_lcEntry (v : Word) (i : Nat) : (State.setRes1 v s).lcEntry i = s.lcEntry i := rfl
@[simp] theorem State.ret_spf (v : Int) : (State.ret v s).spf = s.spf := rfl
@[simp] theorem State.ret_slotRec (v : Int) (i : Nat) : (State.ret v s).slotRec i = s.slotRec i := rfl
@[simp] theorem State.ret_lcEntry (v : Int) (i : Nat) : (State.ret v s).lcEntry i = s.lcEntry i := rfl
@[simp] theorem State.log_spf (v : Int) (f k : Nat) : (State.log v f k s).spf = s.spf := rfl
@[simp] theorem State.log_slotRec (v : Int) (f k : Nat) (i : Nat) : (State.log v f k s).slotRec i = s.slotRec i := rfl
@[simp] theorem State.log_port (v : Int) (f k : Nat) : (State.log v f k s).port = s.port := rfl
@[simp] theorem State.log_lcEntry (v : Int) (f k : Nat) (i : Nat) : (State.log v f k s).lcEntry i = s.lcEntry i := rfl
@[simp] theorem State.modSlot_spf (k : Nat) (f : SlotRec → SlotRec) : (State.modSlot k f s).spf = s.spf := rfl
@[simp] theorem State.modSlot_port (k : Nat) (f : SlotRec → SlotRec) : (State.modSlot k f s).port = s.port := rfl
@[simp] theorem State.modSlot_lcEntry (k : Nat) (f : SlotRec → SlotRec) (i : Nat) : (State.modSlot k f s).lcEntry i = s.lcEntry i := rfl
@[simp] theorem State.release_spf (k : Nat) : (State.release k s).spf = s.spf := rfl
@[simp] theorem State.release_port (k : Nat) : (State.release k s).port = s.port := rfl
@[simp] theorem State.release_lcEntry (k : Nat) (i : Nat) : (State.release k s).lcEntry i = s.lcEntry i := rfl
@[simp] theorem State.unwait_spf : (State.unwait s).spf = s.spf := rfl
@[simp] theorem State.unwait_port : (State.unwait s).port = s.port := rfl
@[simp] theorem State.unwait_lcEntry (i : Nat) : (State.unwait s).lcEntry i = s.lcEntry i := rfl
@[simp] theorem State.raiseFault_spf (v : FaultCode) : (State.raiseFault v s).spf = s.spf := rfl
@[simp] theorem State.raiseFault_slotRec (v : FaultCode) (i : Nat) : (State.raiseFault v s).slotRec i = s.slotRec i := rfl
@[simp] theorem State.raiseFault_lcEntry (v : FaultCode) (i : Nat) : (State.raiseFault v s).lcEntry i = s.lcEntry i := rfl
@[simp] theorem State.skipGrant_spf (v : Int) (f k : Nat) : (State.skipGrant v f k s).spf = s.spf := rfl
@[simp] theorem State.skipGrant_slotRec (v : Int) (f k : Nat) (i : Nat) : (State.skipGrant v f k s).slotRec i = s.slotRec i := rfl
@[simp] theorem State.skipGrant_lcEntry (v : Int) (f k : Nat) (i : Nat) : (State.skipGrant v f k s).lcEntry i = s.lcEntry i := rfl
@[simp] theorem State.charge_spf (j k : Nat) : (State.charge j k s).spf = s.spf := rfl
@[simp] theorem State.charge_slotRec (j k : Nat) (i : Nat) : (State.charge j k s).slotRec i = s.slotRec i := rfl
@[simp] theorem State.charge_port (j k : Nat) : (State.charge j k s).port = s.port := rfl
@[simp] theorem State.creditAll_spf (n : Nat) : (State.creditAll n s).spf = s.spf := rfl
@[simp] theorem State.creditAll_slotRec (n : Nat) (i : Nat) : (State.creditAll n s).slotRec i = s.slotRec i := rfl
@[simp] theorem State.creditAll_port (n : Nat) : (State.creditAll n s).port = s.port := rfl
@[simp] theorem State.triggerRemember_spf (b e : List Nat) : (State.triggerRemember b e s).spf = s.spf := rfl
@[simp] theorem State.triggerRemember_slotRec (b e : List Nat) (i : Nat) : (State.triggerRemember b e s).slotRec i = s.slotRec i := rfl
@[simp] theorem State.triggerRemember_port (b e : List Nat) : (State.triggerRemember b e s).port = s.port := rfl
@[simp] theorem State.triggerRemember_lcEntry (b e : List Nat) (i : Nat) : (State.triggerRemember b e s).lcEntry i = s.lcEntry i := rfl
@[simp] theorem State.pokeDmem_spf (a : Nat) (b : Byte) : (State.pokeDmem a b s).spf = s.spf := rfl
@[simp] theorem State.pokeDmem_slotRec (a : Nat) (b : Byte) (i : Nat) : (State.pokeDmem a b s).slotRec i = s.slotRec i := rfl
@[simp] theorem State.pokeDmem_port (a : Nat) (b : Byte) : (State.pokeDmem a b s).port = s.port := rfl
@[simp] theorem State.pokeDmem_lcEntry (a : Nat) (b : Byte) (i : Nat) : (State.pokeDmem a b s).lcEntry i = s.lcEntry i := rfl
@[simp] theorem State.setArg_spf (p : Nat) (k : Fin 4) (v : Word) : (State.setArg p k v s).spf = s.spf := rfl
@[simp] theorem State.setArg_slotRec (p : Nat) (k : Fin 4) (v : Word) (i : Nat) : (State.setArg p k v s).slotRec i = s.slotRec i := rfl
@[simp] theorem State.setArg_lcEntry (p : Nat) (k : Fin 4) (v : Word) (i : Nat) : (State.setArg p k v s).lcEntry i = s.lcEntry i := rfl

end Sys2Proof.Machine
end

