-- ==== Sys2Proof/Laws/Ops.lean ====
section
/-! SUPPORT. One specification lemma for each shared operation: everything it can do, so that no proof about a
command unfolds it again. -/

namespace Sys2Proof.Machine

/-! ### Checks in sequence -/

theorem bind_ok_iff {ε α β : Type} {x : Except ε α} {f : α → Except ε β} {t : β} :
    (x >>= f) = .ok t ↔ ∃ a, x = .ok a ∧ f a = .ok t := by
  cases x with
  | error e => simp [bind, Except.bind]
  | ok a => simp [bind, Except.bind]

theorem bind_error_iff {ε α β : Type} {x : Except ε α} {f : α → Except ε β} {e : ε} :
    (x >>= f) = .error e ↔ x = .error e ∨ ∃ a, x = .ok a ∧ f a = .error e := by
  cases x with
  | error d => simp [bind, Except.bind]
  | ok a => simp [bind, Except.bind]

theorem pure_ok_iff {ε α : Type} {a t : α} : (pure a : Except ε α) = .ok t ↔ a = t := by
  simp [pure, Except.pure]

@[simp] theorem require_pos {p : Prop} [Decidable p] (h : p) (c : FaultCode) : require p c = .ok () := by
  simp [require, h]

@[simp] theorem require_neg {p : Prop} [Decidable p] (h : ¬p) (c : FaultCode) :
    require p c = .error (.fault c) := by simp [require, h]

theorem require_ok_iff {p : Prop} [Decidable p] {c : FaultCode} {u : Unit} :
    require p c = .ok u ↔ p := by by_cases h : p <;> simp [h]

theorem require_error_iff {p : Prop} [Decidable p] {c : FaultCode} {e : Stop} :
    require p c = .error e ↔ ¬p ∧ e = .fault c := by by_cases h : p <;> simp [h, eq_comm]

theorem checkRegion_ok_iff {s : State} {a n al : Nat} {u : Unit} :
    checkRegion s a n al = .ok u ↔ RegionOk s a n al := by
  simp only [checkRegion, bind_ok_iff, require_ok_iff, exists_and_left, RegionOk]
  exact ⟨fun ⟨h, _, h'⟩ => ⟨h, h'⟩, fun h => ⟨h.1, (), h.2⟩⟩

theorem checkRegion_pos {s : State} {a n al : Nat} (h : RegionOk s a n al) :
    checkRegion s a n al = .ok () := checkRegion_ok_iff.mpr h

theorem checkRegion_range {s : State} {a n al : Nat} (h : ¬(a < 2 ^ 26 ∧ a + n ≤ s.build.dmemSize)) :
    checkRegion s a n al = .error (.fault .dmemRange) := by
  simp only [checkRegion, require_neg h]; rfl

theorem checkRegion_misaligned {s : State} {a n al : Nat} (h : a < 2 ^ 26 ∧ a + n ≤ s.build.dmemSize)
    (h' : a % al ≠ 0) : checkRegion s a n al = .error (.fault .misaligned) := by
  simp only [checkRegion, require_pos h, require_neg h']; rfl

theorem checkRegions_ok_iff {s : State} {n al : Nat} {l : List Nat} {u : Unit} :
    checkRegions s n al l = .ok u ↔ ∀ a ∈ l, RegionOk s a n al := by
  induction l with
  | nil => simp [checkRegions]
  | cons a rest ih =>
    simp only [checkRegions, bind_ok_iff, checkRegion_ok_iff, ih, List.forall_mem_cons]
    exact ⟨fun ⟨_, h⟩ => h, fun h => ⟨(), h⟩⟩

theorem checkAddresses_ok_iff {l : List Nat} {u : Unit} :
    checkAddresses l = .ok u ↔ ∀ a ∈ l, a < 2 ^ 26 ∧ a % 4 = 0 := by
  induction l with
  | nil => simp [checkAddresses]
  | cons a rest ih =>
    simp only [checkAddresses, bind_ok_iff, require_ok_iff, ih, List.forall_mem_cons]
    exact ⟨fun ⟨_, h, _, h', hr⟩ => ⟨⟨h, h'⟩, hr⟩, fun ⟨⟨h, h'⟩, hr⟩ => ⟨(), h, (), h', hr⟩⟩

/-- What LAYER_MAP's regions must be: 26-bit addresses aligned to 4, and inside DMEM where there is a symbol
(spec/44_precoding_transform.md R810, log 27). -/
theorem checkLayerRegions_ok_iff {s : State} {d : LayerMapDesc} {u : Unit} :
    checkLayerRegions s d = .ok u ↔
      (d.nIn = 0 → ∀ a ∈ d.inAddr :: d.outAddr.take d.nLayers, a < 2 ^ 26 ∧ a % 4 = 0) ∧
      (d.nIn ≠ 0 → RegionOk s d.inAddr (4 * d.nIn) 4 ∧
        ∀ a ∈ d.outAddr.take d.nLayers, RegionOk s a (4 * (d.nIn / d.nLayers)) 4) := by
  unfold checkLayerRegions
  by_cases h : d.nIn = 0
  · rw [if_pos h, checkAddresses_ok_iff]
    simp [h]
  · rw [if_neg h, bind_ok_iff]
    simp only [checkRegion_ok_iff, checkRegions_ok_iff]
    exact ⟨fun ⟨_, h1, h2⟩ => ⟨fun h0 => absurd h0 h, fun _ => ⟨h1, h2⟩⟩, fun hh => ⟨(), hh.2 h⟩⟩

theorem readDesc_ok_iff {s : State} {daddr n : Nat} {bs : List Byte} :
    readDesc s daddr n = .ok bs ↔
      RegionOk s (4 * daddr) n 4 ∧ bs = readBytes s.mem (4 * daddr) n := by
  simp only [readDesc, bind_ok_iff, checkRegion_ok_iff]
  constructor
  · rintro ⟨_, h, h'⟩; exact ⟨h, by injection h' with h'; exact h'.symm⟩
  · rintro ⟨h, rfl⟩; exact ⟨(), h, rfl⟩

theorem readDesc_pos {s : State} {daddr n : Nat} (h : RegionOk s (4 * daddr) n 4) :
    readDesc s daddr n = .ok (readBytes s.mem (4 * daddr) n) := readDesc_ok_iff.mpr ⟨h, rfl⟩

/-- What a handle that passes its checks names (spec/40_config_store.md R404). -/
theorem checkHandle_ok_iff {s : State} {h : Nat} {x : Nat × Nat} :
    checkHandle s h = .ok x ↔
      h ≠ 0xFFFF ∧ (bits h 15 8 < s.spf ∧ bits h 7 0 ≤ s.build.nPdu) ∧
      (s.slotRec (bits h 15 8)).lock = some s.cur ∧ x = (bits h 15 8, bits h 7 0) := by
  simp only [checkHandle, bind_ok_iff, require_ok_iff]
  constructor
  · rintro ⟨_, h1, _, h2, _, h3, h4⟩
    exact ⟨h1, h2, h3, by injection h4 with h4; exact h4.symm⟩
  · rintro ⟨h1, h2, h3, rfl⟩; exact ⟨(), h1, (), h2, (), h3, rfl⟩

theorem checkHandle_null (s : State) : checkHandle s 0xFFFF = .error (.fault .fatalNull) := by
  simp [checkHandle, require, bind, Except.bind]

/-! ### The end of a step -/

@[simp] theorem finish_ok (s t : State) : finish s (.ok t) = t := rfl
@[simp] theorem finish_fault (s : State) (c : FaultCode) :
    finish s (.error (.fault c)) = s.raiseFault c := rfl
@[simp] theorem finish_hold (s : State) (l : List Nat) : finish s (.error (.hold l)) = s.hold l := rfl

/-- A step ends normally, in a fault or held, and in no other way (spec/60_exceptions.md R1000). -/
theorem finish_cases (s : State) (x : Except Stop State) :
    (∃ t, x = .ok t ∧ finish s x = t) ∨ (∃ c, x = .error (.fault c) ∧ finish s x = s.raiseFault c) ∨
      ∃ l, x = .error (.hold l) ∧ finish s x = s.hold l := by
  match x with
  | .ok t => exact .inl ⟨t, rfl, rfl⟩
  | .error (.fault c) => exact .inr (.inl ⟨c, rfl, rfl⟩)
  | .error (.hold l) => exact .inr (.inr ⟨l, rfl, rfl⟩)

/-! ### Lists of records -/

theorem getD_modify {α : Type} (l : List α) (k i : Nat) (f : α → α) (d : α) :
    (l.modify k f).getD i d = if i = k ∧ k < l.length then f (l.getD k d) else l.getD i d := by
  simp only [List.getD_eq_getElem?_getD, List.getElem?_modify]
  by_cases hik : k = i
  · subst hik
    by_cases hk : k < l.length
    · simp [hk]
    · simp [hk]
  · have : ¬i = k := fun e => hik e.symm
    simp [hik, this]

theorem getD_map {α : Type} (l : List α) (i : Nat) (f : α → α) (d : α) :
    (l.map f).getD i d = if i < l.length then f (l.getD i d) else d := by
  simp only [List.getD_eq_getElem?_getD, List.getElem?_map]
  by_cases h : i < l.length <;> simp [h]

theorem State.modSlot_slotRec (s : State) (k i : Nat) (f : SlotRec → SlotRec) :
    (s.modSlot k f).slotRec i = if i = k ∧ k < s.store.length then f (s.slotRec k) else s.slotRec i :=
  getD_modify _ _ _ _ _

theorem State.unwait_slotRec (s : State) {i : Nat} (h : i < s.store.length) :
    s.unwait.slotRec i =
      { s.slotRec i with waiters := (s.slotRec i).waiters.filter fun q => q ≠ s.cur } := by
  simp [State.slotRec, h]

theorem SlotRec.modEntry_entry (r : SlotRec) (e i : Nat) (f : Entry → Entry) :
    (r.modEntry e f).entry i = if i = e ∧ e < r.entries.length then f (r.entry e) else r.entry i :=
  getD_modify _ _ _ _ _

theorem State.modPort_port {s : State} (h : s.cur < s.ports.length) (f : Port → Port) :
    (s.modPort f).port = f s.port := by
  simp [State.port, h]

theorem State.charge_lcEntry (s : State) (j k i : Nat) :
    (s.charge j k).lcEntry i =
      if i = j ∧ j < s.lc.length then
        { s.lcEntry j with bj := if (s.lcEntry j).pbrInf then (s.lcEntry j).bj else (s.lcEntry j).bj - k }
      else s.lcEntry i := getD_modify _ _ _ _ _

/-! ### Holding (spec/60_exceptions.md R1030) -/

theorem mem_addWaiter (p q : Nat) (l : List Nat) : q ∈ addWaiter p l ↔ q = p ∨ q ∈ l := by
  simp only [addWaiter, List.mem_append, List.mem_filter, List.mem_cons, decide_eq_true_eq]
  constructor
  · rintro (⟨h, _⟩ | rfl | ⟨h, _⟩) <;> simp_all
  · rintro (rfl | h)
    · simp
    · rcases lt_trichotomy q p with hq | rfl | hq <;> simp_all

/-- A hold changes nothing but who waits on which lock. -/
theorem State.hold_eq (s : State) (l : List Nat) :
    s.hold l = { s with store := (s.hold l).store } ∧ (s.hold l).store.length = s.store.length ∧
      ∀ i, { (s.hold l).slotRec i with waiters := (s.slotRec i).waiters } = s.slotRec i := by
  have hu : s.unwait = { s with store := s.unwait.store } ∧ s.unwait.store.length = s.store.length ∧
      ∀ i, { s.unwait.slotRec i with waiters := (s.slotRec i).waiters } = s.slotRec i := by
    refine ⟨rfl, by simp, fun i => ?_⟩
    by_cases h : i < s.store.length
    · rw [State.unwait_slotRec s h]
    · simp [State.slotRec, h]
  unfold State.hold
  generalize s.unwait = t at hu
  induction l generalizing t with
  | nil => exact hu
  | cons k rest ih =>
    refine ih _ ⟨?_, by simpa using hu.2.1, fun i => ?_⟩
    · rw [hu.1]; rfl
    · rw [State.modSlot_slotRec]
      by_cases h : i = k ∧ k < t.store.length
      · rw [if_pos h, ← h.1]; exact hu.2.2 i
      · rw [if_neg h]; exact hu.2.2 i

/-! ### Locks (spec/40_config_store.md R402) -/

/-- Acquire takes a FREE lock, faults on the port's own and holds on another's. -/
theorem State.acquire_cases (s : State) (k : Nat) :
    ((s.slotRec k).lock = none ∧ s.acquire k = .ok (s.modSlot k fun r => { r with lock := some s.cur })) ∨
    ((s.slotRec k).lock = some s.cur ∧ s.acquire k = .error (.fault .selfDeadlock)) ∨
    ∃ p, p ≠ s.cur ∧ (s.slotRec k).lock = some p ∧ s.acquire k = .error (.hold [k]) := by
  unfold State.acquire
  cases h : (s.slotRec k).lock with
  | none => exact .inl ⟨rfl, rfl⟩
  | some p =>
    by_cases hp : p = s.cur
    · exact .inr (.inl ⟨by rw [hp], by simp [hp]⟩)
    · exact .inr (.inr ⟨p, hp, rfl, by simp [hp]⟩)

/-! ### The RLC oracle (spec/20_memory.md R240) -/

/-- A status query takes an answer and changes nothing else. -/
theorem State.rlcStatus_frame (s : State) (j : Nat) :
    (s.rlcStatus j).2 = { s with rlc := (s.rlcStatus j).2.rlc, draws := (s.rlcStatus j).2.draws } := by
  unfold State.rlcStatus; split <;> rfl

/-- A data request takes an answer of at most the bytes asked for and changes nothing else. -/
theorem State.rlcData_frame (s : State) (j n : Nat) :
    (s.rlcData j n).1.length ≤ n ∧
      (s.rlcData j n).2 = { s with rlc := (s.rlcData j n).2.rlc, draws := (s.rlcData j n).2.draws } := by
  unfold State.rlcData; split <;> simp

theorem State.rlcStatuses_frame (s : State) (l : List Nat) :
    (s.rlcStatuses l).1.map Prod.fst = l ∧
      (s.rlcStatuses l).2 =
        { s with rlc := (s.rlcStatuses l).2.rlc, draws := (s.rlcStatuses l).2.draws } := by
  induction l generalizing s with
  | nil => simp [State.rlcStatuses]
  | cons j rest ih =>
    have h := ih (s.rlcStatus j).2
    have h0 := s.rlcStatus_frame j
    refine ⟨by simp [State.rlcStatuses, h.1], ?_⟩
    simp only [State.rlcStatuses]
    rw [h.2, h0]

end Sys2Proof.Machine
end

