-- ==== Sys2Proof/Laws/PerInstr.lean ====
section
/-! SUPPORT. The family OpcodeRow: the command word of a well-formed command holds the opcode of its row of
spec/opcode_table.json and, in each field of its format, that field's operand (spec/30_encoding.md R301,
R305). -/

namespace Sys2Proof.Laws.OpcodeRow

/-- OPC of a command (spec/30_encoding.md R305). -/
def opcode : Instr → Nat
  | .cfgWrite _ => 0x01
  | .init => 0x02
  | .lcConfig _ => 0x03
  | .taExpiry => 0x04
  | .ulLockGet _ _ _ => 0x08
  | .ulRelease _ _ => 0x09
  | .ulRemoveLast _ => 0x0A
  | .ulIterGet _ _ => 0x0B
  | .ulPduWrite _ => 0x0C
  | .ulPduRead _ => 0x0D
  | .grantTarget _ => 0x10
  | .puschBuild _ => 0x11
  | .harqRead _ => 0x12
  | .lcpRun _ => 0x14
  | .bsrEval _ => 0x15
  | .lcRead _ => 0x16
  | .layerMap _ => 0x18
  | .tpDft _ => 0x19
  | .mapPusch _ => 0x1A
  | .precode _ => 0x1B
  | .llr16Qam _ => 0x20
  | .llr64Qam _ => 0x21
  | .llr256Qam _ => 0x22

/-- The fields of a command's format below OPC, as high bit, low bit and value; a reserved field and an
unused PTYPE or CLR hold 0 (spec/30_encoding.md R301, R303). -/
def fields : Instr → List (Nat × Nat × Nat)
  | .cfgWrite daddr => [(25, 24, 0), (23, 0, daddr)]
  | .init => [(25, 0, 0)]
  | .lcConfig daddr => [(25, 24, 0), (23, 0, daddr)]
  | .taExpiry => [(25, 0, 0)]
  | .ulLockGet ptype frame slot => [(25, 23, ptype), (22, 22, 0), (21, 12, frame), (11, 4, slot), (3, 0, 0)]
  | .ulRelease clr handle => [(25, 25, clr), (24, 16, 0), (15, 0, handle)]
  | .ulRemoveLast handle => [(25, 16, 0), (15, 0, handle)]
  | .ulIterGet frame slot => [(25, 22, 0), (21, 12, frame), (11, 4, slot), (3, 0, 0)]
  | .ulPduWrite handle => [(25, 16, 0), (15, 0, handle)]
  | .ulPduRead handle => [(25, 16, 0), (15, 0, handle)]
  | .grantTarget daddr => [(25, 24, 0), (23, 0, daddr)]
  | .puschBuild daddr => [(25, 24, 0), (23, 0, daddr)]
  | .harqRead index => [(25, 8, 0), (7, 0, index)]
  | .lcpRun daddr => [(25, 24, 0), (23, 0, daddr)]
  | .bsrEval daddr => [(25, 24, 0), (23, 0, daddr)]
  | .lcRead index => [(25, 8, 0), (7, 0, index)]
  | .layerMap daddr => [(25, 24, 0), (23, 0, daddr)]
  | .tpDft daddr => [(25, 24, 0), (23, 0, daddr)]
  | .mapPusch daddr => [(25, 24, 0), (23, 0, daddr)]
  | .precode daddr => [(25, 24, 0), (23, 0, daddr)]
  | .llr16Qam daddr => [(25, 24, 0), (23, 0, daddr)]
  | .llr64Qam daddr => [(25, 24, 0), (23, 0, daddr)]
  | .llr256Qam daddr => [(25, 24, 0), (23, 0, daddr)]

/-- The command word carries the opcode and every field of the command's row. -/
def Statement (i : Instr) : Prop :=
  i.wf = true → bits (encode i).toNat 31 26 = opcode i ∧
    ∀ f ∈ fields i, bits (encode i).toNat f.1 f.2.1 = f.2.2

/-- The number a command word holds. -/
theorem wordOf_toNat {opc low : Nat} (h1 : opc < 64) (h2 : low < 2 ^ 26) :
    (wordOf opc low).toNat = opc * 2 ^ 26 + low := by
  simp only [wordOf, BitVec.toNat_ofNat]; omega

theorem cfgWrite (daddr : Nat) : Statement (.cfgWrite daddr) := by
  intro h
  simp only [Instr.wf, decide_eq_true_eq] at h
  have hw := wordOf_toNat (opc := 0x01) (low := daddr) (by decide) (by omega)
  simp only [encode, hw, opcode, fields, bits, List.forall_mem_cons, List.not_mem_nil, false_imp_iff,
    implies_true, and_true]
  simp only [Nat.reduceAdd, Nat.reduceSub, Nat.reducePow]
  omega

theorem init : Statement (.init) := by
  intro _; decide

theorem lcConfig (daddr : Nat) : Statement (.lcConfig daddr) := by
  intro h
  simp only [Instr.wf, decide_eq_true_eq] at h
  have hw := wordOf_toNat (opc := 0x03) (low := daddr) (by decide) (by omega)
  simp only [encode, hw, opcode, fields, bits, List.forall_mem_cons, List.not_mem_nil, false_imp_iff,
    implies_true, and_true]
  simp only [Nat.reduceAdd, Nat.reduceSub, Nat.reducePow]
  omega

theorem taExpiry : Statement (.taExpiry) := by
  intro _; decide

theorem ulLockGet (ptype frame slot : Nat) : Statement (.ulLockGet ptype frame slot) := by
  intro h
  simp only [Instr.wf, Bool.and_eq_true, decide_eq_true_eq] at h
  have hw := wordOf_toNat (opc := 0x08) (low := ptype * 2 ^ 23 + frame * 2 ^ 12 + slot * 2 ^ 4) (by decide) (by omega)
  simp only [encode, hw, opcode, fields, bits, List.forall_mem_cons, List.not_mem_nil, false_imp_iff,
    implies_true, and_true]
  simp only [Nat.reduceAdd, Nat.reduceSub, Nat.reducePow]
  omega

theorem ulRelease (clr handle : Nat) : Statement (.ulRelease clr handle) := by
  intro h
  simp only [Instr.wf, Bool.and_eq_true, decide_eq_true_eq] at h
  have hw := wordOf_toNat (opc := 0x09) (low := clr * 2 ^ 25 + handle) (by decide) (by omega)
  simp only [encode, hw, opcode, fields, bits, List.forall_mem_cons, List.not_mem_nil, false_imp_iff,
    implies_true, and_true]
  simp only [Nat.reduceAdd, Nat.reduceSub, Nat.reducePow]
  omega

theorem ulRemoveLast (handle : Nat) : Statement (.ulRemoveLast handle) := by
  intro h
  simp only [Instr.wf, decide_eq_true_eq] at h
  have hw := wordOf_toNat (opc := 0x0A) (low := handle) (by decide) (by omega)
  simp only [encode, hw, opcode, fields, bits, List.forall_mem_cons, List.not_mem_nil, false_imp_iff,
    implies_true, and_true]
  simp only [Nat.reduceAdd, Nat.reduceSub, Nat.reducePow]
  omega

theorem ulIterGet (frame slot : Nat) : Statement (.ulIterGet frame slot) := by
  intro h
  simp only [Instr.wf, Bool.and_eq_true, decide_eq_true_eq] at h
  have hw := wordOf_toNat (opc := 0x0B) (low := frame * 2 ^ 12 + slot * 2 ^ 4) (by decide) (by omega)
  simp only [encode, hw, opcode, fields, bits, List.forall_mem_cons, List.not_mem_nil, false_imp_iff,
    implies_true, and_true]
  simp only [Nat.reduceAdd, Nat.reduceSub, Nat.reducePow]
  omega

theorem ulPduWrite (handle : Nat) : Statement (.ulPduWrite handle) := by
  intro h
  simp only [Instr.wf, decide_eq_true_eq] at h
  have hw := wordOf_toNat (opc := 0x0C) (low := handle) (by decide) (by omega)
  simp only [encode, hw, opcode, fields, bits, List.forall_mem_cons, List.not_mem_nil, false_imp_iff,
    implies_true, and_true]
  simp only [Nat.reduceAdd, Nat.reduceSub, Nat.reducePow]
  omega

theorem ulPduRead (handle : Nat) : Statement (.ulPduRead handle) := by
  intro h
  simp only [Instr.wf, decide_eq_true_eq] at h
  have hw := wordOf_toNat (opc := 0x0D) (low := handle) (by decide) (by omega)
  simp only [encode, hw, opcode, fields, bits, List.forall_mem_cons, List.not_mem_nil, false_imp_iff,
    implies_true, and_true]
  simp only [Nat.reduceAdd, Nat.reduceSub, Nat.reducePow]
  omega

theorem grantTarget (daddr : Nat) : Statement (.grantTarget daddr) := by
  intro h
  simp only [Instr.wf, decide_eq_true_eq] at h
  have hw := wordOf_toNat (opc := 0x10) (low := daddr) (by decide) (by omega)
  simp only [encode, hw, opcode, fields, bits, List.forall_mem_cons, List.not_mem_nil, false_imp_iff,
    implies_true, and_true]
  simp only [Nat.reduceAdd, Nat.reduceSub, Nat.reducePow]
  omega

theorem puschBuild (daddr : Nat) : Statement (.puschBuild daddr) := by
  intro h
  simp only [Instr.wf, decide_eq_true_eq] at h
  have hw := wordOf_toNat (opc := 0x11) (low := daddr) (by decide) (by omega)
  simp only [encode, hw, opcode, fields, bits, List.forall_mem_cons, List.not_mem_nil, false_imp_iff,
    implies_true, and_true]
  simp only [Nat.reduceAdd, Nat.reduceSub, Nat.reducePow]
  omega

theorem harqRead (index : Nat) : Statement (.harqRead index) := by
  intro h
  simp only [Instr.wf, decide_eq_true_eq] at h
  have hw := wordOf_toNat (opc := 0x12) (low := index) (by decide) (by omega)
  simp only [encode, hw, opcode, fields, bits, List.forall_mem_cons, List.not_mem_nil, false_imp_iff,
    implies_true, and_true]
  simp only [Nat.reduceAdd, Nat.reduceSub, Nat.reducePow]
  omega

theorem lcpRun (daddr : Nat) : Statement (.lcpRun daddr) := by
  intro h
  simp only [Instr.wf, decide_eq_true_eq] at h
  have hw := wordOf_toNat (opc := 0x14) (low := daddr) (by decide) (by omega)
  simp only [encode, hw, opcode, fields, bits, List.forall_mem_cons, List.not_mem_nil, false_imp_iff,
    implies_true, and_true]
  simp only [Nat.reduceAdd, Nat.reduceSub, Nat.reducePow]
  omega

theorem bsrEval (daddr : Nat) : Statement (.bsrEval daddr) := by
  intro h
  simp only [Instr.wf, decide_eq_true_eq] at h
  have hw := wordOf_toNat (opc := 0x15) (low := daddr) (by decide) (by omega)
  simp only [encode, hw, opcode, fields, bits, List.forall_mem_cons, List.not_mem_nil, false_imp_iff,
    implies_true, and_true]
  simp only [Nat.reduceAdd, Nat.reduceSub, Nat.reducePow]
  omega

theorem lcRead (index : Nat) : Statement (.lcRead index) := by
  intro h
  simp only [Instr.wf, decide_eq_true_eq] at h
  have hw := wordOf_toNat (opc := 0x16) (low := index) (by decide) (by omega)
  simp only [encode, hw, opcode, fields, bits, List.forall_mem_cons, List.not_mem_nil, false_imp_iff,
    implies_true, and_true]
  simp only [Nat.reduceAdd, Nat.reduceSub, Nat.reducePow]
  omega

theorem layerMap (daddr : Nat) : Statement (.layerMap daddr) := by
  intro h
  simp only [Instr.wf, decide_eq_true_eq] at h
  have hw := wordOf_toNat (opc := 0x18) (low := daddr) (by decide) (by omega)
  simp only [encode, hw, opcode, fields, bits, List.forall_mem_cons, List.not_mem_nil, false_imp_iff,
    implies_true, and_true]
  simp only [Nat.reduceAdd, Nat.reduceSub, Nat.reducePow]
  omega

theorem tpDft (daddr : Nat) : Statement (.tpDft daddr) := by
  intro h
  simp only [Instr.wf, decide_eq_true_eq] at h
  have hw := wordOf_toNat (opc := 0x19) (low := daddr) (by decide) (by omega)
  simp only [encode, hw, opcode, fields, bits, List.forall_mem_cons, List.not_mem_nil, false_imp_iff,
    implies_true, and_true]
  simp only [Nat.reduceAdd, Nat.reduceSub, Nat.reducePow]
  omega

theorem mapPusch (daddr : Nat) : Statement (.mapPusch daddr) := by
  intro h
  simp only [Instr.wf, decide_eq_true_eq] at h
  have hw := wordOf_toNat (opc := 0x1A) (low := daddr) (by decide) (by omega)
  simp only [encode, hw, opcode, fields, bits, List.forall_mem_cons, List.not_mem_nil, false_imp_iff,
    implies_true, and_true]
  simp only [Nat.reduceAdd, Nat.reduceSub, Nat.reducePow]
  omega

theorem precode (daddr : Nat) : Statement (.precode daddr) := by
  intro h
  simp only [Instr.wf, decide_eq_true_eq] at h
  have hw := wordOf_toNat (opc := 0x1B) (low := daddr) (by decide) (by omega)
  simp only [encode, hw, opcode, fields, bits, List.forall_mem_cons, List.not_mem_nil, false_imp_iff,
    implies_true, and_true]
  simp only [Nat.reduceAdd, Nat.reduceSub, Nat.reducePow]
  omega

theorem llr16Qam (daddr : Nat) : Statement (.llr16Qam daddr) := by
  intro h
  simp only [Instr.wf, decide_eq_true_eq] at h
  have hw := wordOf_toNat (opc := 0x20) (low := daddr) (by decide) (by omega)
  simp only [encode, hw, opcode, fields, bits, List.forall_mem_cons, List.not_mem_nil, false_imp_iff,
    implies_true, and_true]
  simp only [Nat.reduceAdd, Nat.reduceSub, Nat.reducePow]
  omega

theorem llr64Qam (daddr : Nat) : Statement (.llr64Qam daddr) := by
  intro h
  simp only [Instr.wf, decide_eq_true_eq] at h
  have hw := wordOf_toNat (opc := 0x21) (low := daddr) (by decide) (by omega)
  simp only [encode, hw, opcode, fields, bits, List.forall_mem_cons, List.not_mem_nil, false_imp_iff,
    implies_true, and_true]
  simp only [Nat.reduceAdd, Nat.reduceSub, Nat.reducePow]
  omega

theorem llr256Qam (daddr : Nat) : Statement (.llr256Qam daddr) := by
  intro h
  simp only [Instr.wf, decide_eq_true_eq] at h
  have hw := wordOf_toNat (opc := 0x22) (low := daddr) (by decide) (by omega)
  simp only [encode, hw, opcode, fields, bits, List.forall_mem_cons, List.not_mem_nil, false_imp_iff,
    implies_true, and_true]
  simp only [Nat.reduceAdd, Nat.reduceSub, Nat.reducePow]
  omega

end Sys2Proof.Laws.OpcodeRow
end

