-- ==== Sys2Proof/Laws/Step.lean ====
section
/-! SUPPORT. Laws of a turn: what the drawn bytes read as and what they hold afterwards, and when a turn does
nothing. -/

namespace Sys2Proof.Machine

/-! ### Free draws (spec/20_memory.md R223) -/

@[simp] theorem overlay_nil (m : List Host.Cell) : overlay [] m = m := rfl

@[simp] theorem settle_nil (w : List (Nat × Nat)) (stored m : List Host.Cell) : settle [] w stored m = m := rfl

/-- A drawn byte reads as its last drawn value, every other byte as stored. -/
theorem readByte_overlay (drawn m : List Host.Cell) (a : Nat) :
    readByte (overlay drawn m) a =
      ((drawn.reverse.find? fun c => c.1 == a).map Prod.snd).getD (readByte m a) := by
  induction drawn generalizing m with
  | nil => rfl
  | cons c rest ih =>
    have h : overlay (c :: rest) m = overlay rest (writeByte m c.1 c.2) := rfl
    rw [h, ih, List.reverse_cons, List.find?_append, readByte_writeByte]
    cases (rest.reverse.find? fun c => c.1 == a) with
    | some d => simp
    | none =>
      by_cases hc : a = c.1
      · simp [hc]
      · have : ¬c.1 = a := fun e => hc e.symm
        simp [hc, this]

/-- After the step a drawn byte that was not written holds what was stored; every other byte is kept. -/
theorem readByte_settle (drawn : List Host.Cell) (w : List (Nat × Nat)) (stored m : List Host.Cell) (a : Nat) :
    readByte (settle drawn w stored m) a =
      if (∃ c ∈ drawn, c.1 = a) ∧ inRegions w a = false then readByte stored a else readByte m a := by
  have key : ∀ (l : List Host.Cell) (m : List Host.Cell),
      readByte (l.foldl (fun m c => writeByte m c.1 (readByte stored c.1)) m) a =
        if ∃ c ∈ l, c.1 = a then readByte stored a else readByte m a := by
    intro l
    induction l with
    | nil => intro m; simp
    | cons c rest ih =>
      intro m
      rw [List.foldl_cons, ih, readByte_writeByte]
      by_cases h : ∃ d ∈ rest, d.1 = a
      · rw [if_pos h, if_pos]
        obtain ⟨d, hd, e⟩ := h
        exact ⟨d, List.mem_cons_of_mem _ hd, e⟩
      · rw [if_neg h]
        by_cases hc : a = c.1
        · rw [if_pos hc, if_pos ⟨c, List.mem_cons_self, hc.symm⟩, hc]
        · rw [if_neg hc, if_neg]
          rintro ⟨d, hd, e⟩
          rcases List.mem_cons.mp hd with rfl | hd
          · exact hc e.symm
          · exact h ⟨d, hd, e⟩
  rw [settle, key]
  congr 1
  simp only [List.mem_filter, Bool.not_eq_true', eq_iff_iff]
  constructor
  · rintro ⟨c, ⟨hc, hw⟩, rfl⟩; exact ⟨⟨c, hc, rfl⟩, hw⟩
  · rintro ⟨⟨c, hc, rfl⟩, hw⟩; exact ⟨c, ⟨hc, hw⟩, rfl⟩

theorem overlay_wf (drawn : List Host.Cell) {m : List Host.Cell} (h : Memory.wf m = true) :
    Memory.wf (overlay drawn m) = true := by
  induction drawn generalizing m with
  | nil => exact h
  | cons c rest ih => exact ih (writeByte_wf h c.1 c.2)

theorem settle_wf (drawn : List Host.Cell) (w : List (Nat × Nat)) (stored : List Host.Cell) {m : List Host.Cell}
    (h : Memory.wf m = true) : Memory.wf (settle drawn w stored m) = true := by
  unfold settle
  generalize drawn.filter _ = l
  induction l generalizing m with
  | nil => exact h
  | cons c rest ih => exact ih (writeByte_wf h c.1 _)

/-- A command that halts the PTB has written nothing, whatever it had read by then (spec/60_exceptions.md
R1020). -/
theorem stepAccesses_of_halted {s t : State} (h : t.halted = true) : (stepAccesses s t).2 = [] := by
  unfold stepAccesses
  split
  · rfl
  · rw [if_pos h]

/-- A held command has accessed nothing (spec/20_memory.md R220). -/
theorem stepAccesses_of_held {s t : State} (h : t.halted = false) (hb : t.port.busy = true) :
    stepAccesses s t = ([], []) := by
  unfold stepAccesses
  split
  · rfl
  · simp [h, hb]

/-! ### Turns (spec/60_exceptions.md R1022, R1030) -/

theorem State.enabled_iff (s : State) (p : Nat) :
    s.enabled p = true ↔ s.halted = false ∧ s.busyPort p = true ∧ s.stillWaits p = false := by
  simp [State.enabled, and_assoc]

theorem State.stillWaits_iff (s : State) (p : Nat) :
    s.stillWaits p = true ↔ ∃ r ∈ s.store, p ∈ r.waiters ∧ r.lock ≠ none := by
  simp [State.stillWaits]

/-- A port that can take no step leaves everything as it is. -/
theorem takeTurn_of_not_enabled {s : State} {p : Nat} (h : s.enabled p = false) (drawn : List Host.Cell) :
    takeTurn p drawn s = .next s := by
  rw [takeTurn, if_pos h]

/-- A turn of a port that can take a step runs its command, whatever it answers. -/
theorem takeTurn_of_enabled {s t : State} {p : Nat} (h : s.enabled p = true) (drawn : List Host.Cell)
    (hr : runCommand (s.turnStart p drawn) = .next t) :
    takeTurn p drawn s =
      .next { t with mem := settle drawn (stepAccesses (s.turnStart p drawn) t).2 s.mem t.mem } := by
  rw [takeTurn, if_neg (by simp [h]), hr]

/-- With no input listed and no port that can take a step, only the counter of free choices moves on. -/
theorem step_of_idle {s : State} (hi : s.inputs = []) (hh : s.halted = false) (h : ∀ p, s.enabled p = false) :
    step s = .next { s with draws := s.draws + 1 } := by
  have h' : ({ s with draws := s.draws + 1 } : State).enabled s.freePort = false := h s.freePort
  unfold step
  split
  · rw [if_neg (by simp [hh])]
    exact takeTurn_of_not_enabled h' _
  all_goals
    rename_i h2
    rw [hi] at h2
    cases h2

end Sys2Proof.Machine
end

