-- ==== Sys2Proof/Tests/Slice0.lean ====
section
/-! SUPPORT. Small tests of the model on words and vectors of spec/95_test_vectors.md, and for every statement of
Certificates/Slice0/Obligations.lean with hypotheses a witness: a concrete state and operands that meet them. -/

namespace Sys2Proof.Tests
open Sys2Proof Sys2Proof.Machine

-- The kernel checks of the tests one after another, so that they do not share the memory limit.
set_option Elab.async false

/-! ### Well-formedness: one ill-formed command for each check -/

theorem test_wf_refuses_wide_daddr :
    [Instr.cfgWrite (2 ^ 24), .lcConfig (2 ^ 24), .grantTarget (2 ^ 24), .puschBuild (2 ^ 24),
      .lcpRun (2 ^ 24), .bsrEval (2 ^ 24), .layerMap (2 ^ 24), .tpDft (2 ^ 24), .mapPusch (2 ^ 24),
      .precode (2 ^ 24), .llr16Qam (2 ^ 24), .llr64Qam (2 ^ 24), .llr256Qam (2 ^ 24)].all
      (fun i => !i.wf) = true := by decide
theorem test_wf_refuses_wide_slot_fields :
    [Instr.ulLockGet 8 0 0, .ulLockGet 1 1024 0, .ulLockGet 1 0 256, .ulIterGet 1024 0, .ulIterGet 0 256].all
      (fun i => !i.wf) = true := by decide
theorem test_wf_refuses_wide_handle_fields :
    [Instr.ulRelease 2 0, .ulRelease 0 65536, .ulRemoveLast 65536, .ulPduWrite 65536, .ulPduRead 65536].all
      (fun i => !i.wf) = true := by decide
theorem test_wf_refuses_wide_index : [Instr.harqRead 256, .lcRead 256].all (fun i => !i.wf) = true := by
  decide
theorem test_wf_admits_the_widest :
    [Instr.cfgWrite 0xFFFFFF, .init, .ulLockGet 7 1023 255, .ulRelease 1 65535, .harqRead 255].all
      (fun i => i.wf) = true := by decide

/-! ### Decoding: command words of spec/95_test_vectors.md section 2, every constructor -/

theorem test_decode_configuration :
    decode 0x04000000 = .ok (.cfgWrite 0) ∧ decode 0x08000000 = .ok .init ∧
    decode 0x0C000020 = .ok (.lcConfig 0x20) ∧ decode 0x10000000 = .ok .taExpiry := ⟨rfl, rfl, rfl, rfl⟩
theorem test_decode_store :
    decode 0x21800050 = .ok (.ulLockGet 3 0 5) ∧ decode 0x20801050 = .ok (.ulLockGet 1 1 5) ∧
    decode 0x223FF130 = .ok (.ulLockGet 4 1023 19) ∧ decode 0x24000500 = .ok (.ulRelease 0 0x0500) ∧
    decode 0x26000500 = .ok (.ulRelease 1 0x0500) ∧ decode 0x28000501 = .ok (.ulRemoveLast 0x0501) ∧
    decode 0x2C000050 = .ok (.ulIterGet 0 5) ∧ decode 0x30000600 = .ok (.ulPduWrite 0x0600) ∧
    decode 0x34000500 = .ok (.ulPduRead 0x0500) := ⟨rfl, rfl, rfl, rfl, rfl, rfl, rfl, rfl, rfl⟩
theorem test_decode_grant :
    decode 0x40000040 = .ok (.grantTarget 0x40) ∧ decode 0x44000040 = .ok (.puschBuild 0x40) ∧
    decode 0x48000003 = .ok (.harqRead 3) := ⟨rfl, rfl, rfl⟩
theorem test_decode_channels :
    decode 0x50000024 = .ok (.lcpRun 0x24) ∧ decode 0x54000028 = .ok (.bsrEval 0x28) ∧
    decode 0x58000004 = .ok (.lcRead 4) := ⟨rfl, rfl, rfl⟩
theorem test_decode_pipeline :
    decode 0x60000860 = .ok (.layerMap 0x860) ∧ decode 0x64000898 = .ok (.tpDft 0x898) ∧
    decode 0x68000880 = .ok (.mapPusch 0x880) ∧ decode 0x6C000890 = .ok (.precode 0x890) ∧
    decode 0x80001800 = .ok (.llr16Qam 0x1800) ∧ decode 0x84001808 = .ok (.llr64Qam 0x1808) ∧
    decode 0x88001810 = .ok (.llr256Qam 0x1810) := ⟨rfl, rfl, rfl, rfl, rfl, rfl, rfl⟩
theorem test_decode_rejects_opcodes :
    decode 0x00000000 = .error .illegalCommand ∧ decode 0x14000000 = .error .illegalCommand ∧
    decode 0x4C000000 = .error .illegalCommand ∧ decode 0xFC000000 = .error .illegalCommand :=
  ⟨rfl, rfl, rfl, rfl⟩
theorem test_decode_rejects_reserved_bits :
    decode 0x21800051 = .error .reservedField ∧ decode 0x21C00050 = .error .reservedField ∧
    decode 0x2D800050 = .error .reservedField ∧ decode 0x2A000500 = .error .reservedField ∧
    decode 0x24010500 = .error .reservedField ∧ decode 0x05000000 = .error .reservedField ∧
    decode 0x48000103 = .error .reservedField ∧ decode 0x08000001 = .error .reservedField :=
  ⟨rfl, rfl, rfl, rfl, rfl, rfl, rfl, rfl⟩
theorem test_encode_gives_the_words_back :
    encode (.ulLockGet 4 1023 19) = 0x223FF130 ∧ encode (.ulRelease 1 0x0500) = 0x26000500 ∧
    encode (.llr256Qam 0x1810) = 0x88001810 := by decide
theorem test_table_word_decodes : decodeTableWord 32 0x223FF130 = some (.ulLockGet 4 1023 19) := by decide
theorem test_first_command_after_reset : step (State.reset.withFetchWord 32 0x08000000) =
    exec .init { (State.reset.withFetchWord 32 0x08000000) with inputs := [] } := by rfl

/-! ### A small implementation, its DMEM and the common start state of spec/95_test_vectors.md section 0 -/

/-- DMEM of 2^18 bytes, N_PDU = 2, two ports, ndi NONE, and the first choice of the other parameters. -/
def tb : Build := ⟨⟨2 ^ 18, by decide⟩, 1, 0, .none, .bj, .wrap, .wrap⟩

/-- The listed bytes of a byte string at an address. -/
def cells (a : Nat) (bs : List Nat) : List Host.Cell :=
  (bs.mapIdx fun i b => (a + i, BitVec.ofNat 8 b)).filter fun c => c.2 ≠ 0

/-- CFG descriptor of program P1. -/
def p1Cfg : List Nat :=
  [0x01, 0, 0x33, 0, 0, 4, 0xCE, 2, 0, 0, 0x33, 0, 1, 1, 2, 0,
   0, 1, 1, 0, 0, 2, 0, 0, 0, 0, 0, 0xFF, 0xFF, 0xFF, 0xFF, 0xFF, 0xFF, 0xFF, 0, 0, 0, 0, 1, 0]
  ++ List.replicate 24 0 ++ [4, 0, 0x1B, 0] ++ List.replicate 60 0

/-- LC config descriptor of program P1. -/
def p1Lc : List Nat := [4, 1, 1, 1, 0x64, 0, 0, 0, 0xE8, 3, 0, 0, 0, 0, 0, 0]

/-- Grant descriptor of program P2. -/
def p2Grant : List Nat :=
  [1, 3, 1, 0, 0x34, 0x12, 0, 0, 1, 0, 0xE8, 3, 9, 2, 0, 1, 1, 1, 0, 0, 0, 0x40, 0, 0]

/-- CFG of program P1, field by field (spec/95_test_vectors.md section 0). -/
def c1 : CfgRegs where
  mu := 1
  duplex := 0
  nRbCarrier := 51
  fftSize := 1024
  firstCarrierOffset := 718
  bwpStart := 0
  bwpSize := 51
  nAnt := 1
  maxRank := 1
  durationRxToTx := 2
  tpEnabled := 0
  msg3TpEnabled := 0
  dmrsType := 1
  dmrsMaxLength := 1
  dmrsAddPos := 0
  msg3DmrsAddPos := 0
  dmrsTypeAPos := 2
  dmrsScramblingId0 := 0
  dmrsScramblingId1 := 0
  ptrsEnabled := 0
  ptrsMcs1 := 255
  ptrsMcs2 := 255
  ptrsMcs3 := 255
  ptrsNrb0 := 0xFFFF
  ptrsNrb1 := 0xFFFF
  ptrsReOffset := 0
  mcsTable := 0
  mcsTableTp := 0
  msg3Delta := 0
  nTdra := 1
  ulSlotMask := 0
  tdra := ⟨4, 0, 27⟩ :: List.replicate 15 ⟨0, 0, 0⟩

/-- The channel 4 of program P1. -/
def lc4 : LcEntry := ⟨true, 1, 1, false, 100, 1000, 0, 0⟩

/-- State right after reset with a DMEM. -/
def fresh (m : List Host.Cell) : State := State.afterReset tb m [] [] 0

/-- The common start state with a DMEM. -/
def base (m : List Host.Cell) : State :=
  { fresh m with
    cfg := c1, cfgValid := true, initDone := true, store := freshStore 20 2
    lc := (List.replicate 33 LcEntry.afterReset).set 4 lc4 }

/-- A state with the registers of port 0 set: ARG0 and BUSY. -/
def arg0 (v : Word) (s : State) : State :=
  { s with ports := s.ports.modify 0 fun p => { p with arg0 := v, busy := true } }

/-- The common start state with slot 5 locked by a port, `n` PUSCH entries reserved, and frame tag 0. -/
def locked (m : List Host.Cell) (q n : Nat) : State :=
  let s := base m
  { s with store := s.store.modify 5 fun r =>
      { r with
        lock := some q
        numberPdus := n
        entries := [⟨3, List.replicate 64 7⟩, ⟨3, List.replicate 64 0⟩, ⟨0, List.replicate 64 0⟩] } }

/-- The state a step or a meaning answers with. -/
def out (o : Host.Outcome State Fault Refusal) (s : State) : State :=
  match o with
  | .next t => t
  | _ => s

/-- The state after a command at a state. -/
def run (i : Instr) (s : State) : State := out (exec i s) s

/-! ### One step of each command -/

/-- P1: CFG_WRITE loads the configuration. -/
theorem test_cfg_write : (run (.cfgWrite 0) (fresh (cells 0 p1Cfg))).cfgValid = true ∧
    (run (.cfgWrite 0) (fresh (cells 0 p1Cfg))).cfg = c1 := by decide +kernel

/-- Section 2: INIT again faults with BAD_ARG; the first builds 20 records. -/
theorem test_init : (run .init { fresh [] with cfg := c1, cfgValid := true }).store.length = 20 ∧
    (run .init (base [])).faultCode = 0x0F := by decide +kernel

/-- P1: LC_CONFIG configures channel 4. -/
theorem test_lc_config :
    (run (.lcConfig 0x20) { base (cells 0x80 p1Lc) with lc := List.replicate 33 LcEntry.afterReset }).lcEntry 4
      = lc4 := by decide +kernel

/-- S11: TA_EXPIRY clears counts and logs; while its port holds a lock it faults. -/
theorem test_ta_expiry :
    (run .taExpiry { locked [] 0 2 with store := (locked [] 0 2).store.map fun r => { r with lock := none } }).errLog
      = [⟨3, 0, 0⟩] ∧
    (run .taExpiry (locked [] 0 2)).faultCode = 0x06 := by decide +kernel

/-- S1: UL_LOCK_GET returns 0x0500 and reserves a PUSCH entry. -/
theorem test_ul_lock_get : (run (.ulLockGet 3 0 5) (base [])).port.res0 = 0x0500 ∧
    ((run (.ulLockGet 3 0 5) (base [])).slotRec 5).numberPdus = 1 := by decide +kernel

/-- S3: a tag of another frame is recovered. -/
theorem test_ul_lock_get_stale :
    let s := { locked [] 0 1 with store := (locked [] 0 1).store.map fun r => { r with lock := none } }
    (run (.ulLockGet 1 1 5) s).port.status = 1 ∧ (run (.ulLockGet 1 1 5) s).errLog = [⟨1, 1, 5⟩] := by
  decide +kernel

/-- S1: UL_RELEASE with CLR frees the lock and clears the count. -/
theorem test_ul_release : ((run (.ulRelease 1 0x0500) (locked [] 0 2)).slotRec 5).lock = none ∧
    ((run (.ulRelease 1 0x0500) (locked [] 0 2)).slotRec 5).numberPdus = 0 := by decide +kernel

/-- S7: UL_REMOVE_LAST takes one off, and underflows at none. -/
theorem test_ul_remove_last : ((run (.ulRemoveLast 0x0500) (locked [] 0 2)).slotRec 5).numberPdus = 1 ∧
    (run (.ulRemoveLast 0x0500) (locked [] 0 0)).faultCode = 0x08 := by decide +kernel

/-- S9: UL_ITER_GET on another port's lock is held. -/
theorem test_ul_iter_get : (run (.ulIterGet 0 5) (base [])).port.res0 = 0x0500 ∧
    ((run (.ulIterGet 0 5) (arg0 0 (locked [] 1 1))).slotRec 5).waiters = [0] ∧
    (run (.ulIterGet 0 5) (arg0 0 (locked [] 1 1))).port.busy = true := by decide +kernel

/-- S10: UL_PDU_WRITE fills entry 0. -/
theorem test_ul_pdu_write :
    ((run (.ulPduWrite 0x0500) (arg0 0x1000 (locked (cells 0x1000 [9]) 0 1))).slotRec 5).entries.getD 0 default
      = ⟨3, 9 :: List.replicate 63 0⟩ := by decide +kernel

/-- S1: UL_PDU_READ writes the payload and returns the type. -/
theorem test_ul_pdu_read :
    (run (.ulPduRead 0x0500) (arg0 0x2000 (locked [] 0 1))).port.res0 = 3 ∧
    readByte (run (.ulPduRead 0x0500) (arg0 0x2000 (locked [] 0 1))).mem 0x203F = 7 := by decide +kernel

/-- P2: GRANT_TARGET finds slot 5. -/
theorem test_grant_target : (run (.grantTarget 0x40) (base (cells 0x100 p2Grant))).port.res1 = 5 := by
  decide +kernel

/-- P2: PUSCH_BUILD of 512 bytes with PUSCH data only, and its HARQ process. -/
theorem test_pusch_build :
    (run (.puschBuild 0x40) (arg0 0x0500 (locked (cells 0x100 p2Grant) 0 1))).port.res0 = 512 ∧
    (run (.puschBuild 0x40) (arg0 0x0500 (locked (cells 0x100 p2Grant) 0 1))).harqEntry 3
      = ⟨1, 512, 6790, 2, 0⟩ := by decide +kernel

/-- B11: a source of 7 is unsupported; a slot field of spf is BAD_ARG (R310). -/
theorem test_pusch_build_skips :
    (run (.puschBuild 0x40) (arg0 0x0500 (locked (cells 0x100 (p2Grant.set 0 7)) 0 1))).port.status = -3 ∧
    (run (.puschBuild 0x40) (arg0 0x0500 (locked (cells 0x100 (p2Grant.set 8 20)) 0 1))).faultCode = 0x0F := by
  decide +kernel

/-- B8: HARQ_READ of an empty process under NONE. -/
theorem test_harq_read :
    readBytes (run (.harqRead 3) (arg0 0x3100 (base []))).mem 0x3100 12 = [0, 0, 0, 0, 0, 0, 0, 0xFF, 0, 0, 0, 0] ∧
    (run (.harqRead 16) (arg0 0x3100 (base []))).faultCode = 0x0F := by decide +kernel

/-- L1: LCP_RUN under BJ. -/
theorem test_lcp_run :
    let s := { base (cells 0x90 [0, 0x50, 0, 0, 0x90, 1, 0, 0, 0, 0, 2, 0]) with
      rlc := [⟨500, []⟩, ⟨0, List.replicate 500 1⟩, ⟨300, []⟩, ⟨0, List.replicate 300 1⟩, ⟨105, []⟩,
        ⟨105, []⟩] }
    (run (.lcpRun 0x24) s).port.res0 = 399 ∧ ((run (.lcpRun 0x24) s).lcEntry 4).bj = -195 := by
  decide +kernel

/-- L2: an aborted LCP_RUN. -/
theorem test_lcp_run_aborts :
    let s := { base (cells 0x90 [0, 0x50, 0, 0, 3, 0, 0, 0, 0, 0, 2, 0]) with rlc := [⟨500, []⟩, ⟨500, []⟩] }
    (run (.lcpRun 0x24) s).port.res1 = 0x18000002 ∧ (run (.lcpRun 0x24) s).errLog = [⟨2, 0, 2⟩] := by
  decide +kernel

/-- L6: two LCGs and five bytes give a long BSR of five. -/
theorem test_bsr_eval :
    let s := base (cells 0xA0 ([0, 0x60, 0, 0, 5, 0, 0, 0, 100, 0, 0, 0, 200, 0, 0, 0]
      ++ List.replicate 24 0 ++ [3, 2, 255, 255, 255, 255, 255, 255]))
    (run (.bsrEval 0x28) s).port.res0 = 3 ∧ (run (.bsrEval 0x28) s).port.res1 = 5 := by decide +kernel

/-- P1: LC_READ of channel 4. -/
theorem test_lc_read : readBytes (run (.lcRead 4) (arg0 0x3000 (base []))).mem 0x3000 12 =
    [1, 1, 1, 0, 0x64, 0, 0, 0, 0xE8, 3, 0, 0] := by decide +kernel

/-- T1: two layers of three symbols each; symbol 3 is the second of layer 1. -/
theorem test_layer_map :
    let s := base (cells 0x2180 [0, 0x25, 0, 0, 6, 0, 0, 0, 2, 0, 0, 0, 0, 0x30, 0, 0, 0, 0x31, 0, 0]
      ++ cells 0x2500 [1, 0, 0, 0, 2, 0, 0, 0, 3, 0, 0, 0, 4, 0, 0, 0])
    (run (.layerMap 0x860) s).port.res0 = 3 ∧ readC16 (run (.layerMap 0x860) s).mem 0x3104 = ⟨4, 0⟩ := by
  decide +kernel

/-- The PUSCH PDU of program P5. -/
def p5Pdu : List Nat :=
  [1, 0, 0x34, 0x12, 0, 0, 0x33, 0, 0x19, 0, 1, 0, 0, 2, 0, 0,
   2, 1, 0, 0, 0, 0, 0, 0, 0, 0, 0, 0, 1, 0, 1, 1,
   1, 0, 0, 0, 0, 0, 0, 0, 0, 0, 0, 0, 0, 1]

/-- T2: a transform-precoded PDU of one RB and 14 symbols has 13 blocks of 12. -/
def tpState : State := base (cells 0x2100
    [9, 0, 0x34, 0x12, 0, 0, 0x33, 0, 0x19, 0, 1, 0, 0, 14, 0, 0,
     2, 1, 0, 0, 0, 0, 0, 0, 0, 0, 0, 1, 4, 0, 1, 2, 1, 0, 0, 0, 0, 0, 0, 0, 0, 0, 0, 0, 0, 1]
  ++ cells 0x2260 [0, 0x21, 0, 0, 0, 0x40, 0, 0, 0, 0x50, 0, 0, 156])

theorem test_tp_dft : (run (.tpDft 0x898) tpState).port.res0 = 13 ∧
    (run (.tpDft 0x898) tpState).port.res1 = 12 := by decide +kernel

/-- The DMEM of program P5, with the layer-mapped data already at 0x2300. -/
def p5Mem : List Host.Cell :=
  cells 0x2100 p5Pdu
  ++ cells 0x2200 [0, 0x21, 0, 0, 0, 0x23, 0, 0, 0, 0, 0, 0, 0, 0, 0, 0,
      0, 0, 0, 0, 0x12, 0, 0, 0, 0, 0x24, 0, 0, 0, 0, 0, 0, 0, 0, 1, 0]
  ++ cells 0x2240 [0, 0x21, 0, 0, 0, 0, 1, 0, 0, 0, 2, 0]
  ++ cells 0x2300 ((List.range 18).flatMap fun i => [100 + i, 0, 0x9C - i, 0xFF])
  ++ cells 0x2400 ((List.range 6).flatMap fun i => [0xE8 + i, 3, 0x18 - i, 0xFC])
  ++ cells 0x10000 [0x61, 0, 0, 0]

/-- P5, M1: d12, the first data value after the DC point, is at 0x11000. -/
theorem test_map_pusch : readC16 (run (.mapPusch 0x880) (base p5Mem)).mem 0x11000 = ⟨112, -112⟩ := by
  decide +kernel

/-- P5: with one antenna and TPMI 0 PRECODE copies; r3's place of the layer grid is copied to 0x20000. -/
theorem test_precode :
    readC16 (run (.precode 0x890) (base p5Mem)).mem 0x20000 = ⟨0x61, 0⟩ := by decide +kernel

/-- A DMEM with an LLR descriptor at 0x6000, two REs and three magnitude arrays. -/
def llrMem : List Host.Cell :=
  cells 0x6000 [0, 0x61, 0, 0, 0, 0x62, 0, 0, 0, 0x64, 0, 0, 0, 0x65, 0, 0, 0, 0x63, 0, 0, 2]
  ++ cells 0x6100 [0x64, 0, 0xD4, 0xFE, 0, 0x80] ++ cells 0x6200 [0xC8, 0, 0xC8]
  ++ cells 0x6400 [50, 0, 50] ++ cells 0x6500 [10, 0, 20]

/-- P7: the 16 bytes of LLR_16QAM under WRAP. -/
theorem test_llr_16qam : readBytes (run (.llr16Qam 0x1800) (base llrMem)).mem 0x6300 16 =
    [0x64, 0, 0xD4, 0xFE, 0x64, 0, 0x9C, 0xFF, 0, 0x80, 0, 0, 0xFF, 0x7F, 0, 0] := by decide +kernel

/-- Section 8: the first RE of LLR_64QAM ends in -50, -50. -/
theorem test_llr_64qam : (run (.llr64Qam 0x1800) (base llrMem)).port.res0 = 12 ∧
    readC16 (run (.llr64Qam 0x1800) (base llrMem)).mem 0x6308 = ⟨-50, -50⟩ := by decide +kernel

/-- Section 8: the first RE of LLR_256QAM ends in -40, -30. -/
theorem test_llr_256qam : (run (.llr256Qam 0x1800) (base llrMem)).port.res0 = 16 ∧
    readC16 (run (.llr256Qam 0x1800) (base llrMem)).mem 0x630C = ⟨-40, -30⟩ := by decide +kernel

/-! ### Tables: vectors B4 to B6, B13 and section 8 -/

theorem test_riv : rivDecode 1000 51 = some (31, 20) ∧ rivDecode 101 51 = some (0, 51) ∧
    rivDecode 1325 51 = some (0, 27) ∧ rivDecode 1326 51 = none := by decide
theorem test_sliv : slivDecode 27 = some (0, 14) ∧ slivDecode 53 = some (2, 12) ∧
    slivDecode 13 = some (13, 1) ∧ slivDecode 105 = none := by decide
theorem test_tbs : tbsCompute 3120 6790 2 1 = 4096 ∧ tbsCompute 36 1200 2 1 = 24 ∧
    tbsCompute 31200 1200 2 1 = 7304 ∧ tbsCompute 42588 9480 8 4 = 1277992 ∧
    tbsCompute 3072 4340 4 1 = 5248 ∧ tbsCompute 3120 0 2 1 = 0 := by decide +kernel
theorem test_ptrs_symbols : ptrsSymbols ⟨1, 2, 1, false, [2]⟩ 4 0 14 = 0x0441 ∧
    ptrsSymbols ⟨1, 2, 1, false, [2, 11]⟩ 2 0 14 = 0x2551 ∧
    ptrsSymbols ⟨1, 2, 1, false, [2]⟩ 2 2 6 = 0x0050 := by decide +kernel
theorem test_sat_sub : satSub 0x8000 32767 = 0x8000 ∧ satSub 32767 (-32768) = 32767 ∧
    satSub 0 (-32768) = 32767 ∧ satSub 100 300 = -200 := by decide

/-! ### Witnesses: encoding -/

theorem test_witness_DecodeOfEncode : (Instr.ulLockGet 7 1023 255).wf = true ∧
    (Instr.ulRelease 1 65535).wf = true ∧ (Instr.llr256Qam 0xFFFFFF).wf = true := by decide
theorem test_witness_EncodeOfDecode : decode 0x223FF130 = .ok (.ulLockGet 4 1023 19) := rfl

/-- A state whose port 0 has issued a word. -/
def issued (w : Word) (s : State) : State :=
  { s with ports := s.ports.modify 0 fun p => { p with cmd := w, busy := true } }

theorem test_witness_IllegalOpcodesFault : bits (0x8C000000 : Word).toNat 31 26 = 0x23 ∧
    decode (issued 0x8C000000 (base [])).port.cmd = .error .illegalCommand := ⟨rfl, rfl⟩
theorem test_witness_ReservedBitsFault :
    (bits (0x05000000 : Word).toNat 31 26 = 0x01 ∧ bits (0x05000000 : Word).toNat 25 24 ≠ 0) ∧
    (bits (0x12000000 : Word).toNat 31 26 = 0x04 ∧ bits (0x12000000 : Word).toNat 25 0 ≠ 0) ∧
    (bits (0x58000100 : Word).toNat 31 26 = 0x16 ∧ bits (0x58000100 : Word).toNat 25 8 ≠ 0) ∧
    (bits (0x2A000000 : Word).toNat 31 26 = 0x0A ∧ bits (0x2A000000 : Word).toNat 25 16 ≠ 0) ∧
    (bits (0x24010000 : Word).toNat 31 26 = 0x09 ∧ bits (0x24010000 : Word).toNat 24 16 ≠ 0) ∧
    (bits (0x20400000 : Word).toNat 31 26 = 0x08 ∧ bits (0x20400000 : Word).toNat 22 22 ≠ 0) ∧
    (bits (0x2C000001 : Word).toNat 31 26 = 0x0B ∧ bits (0x2C000001 : Word).toNat 3 0 ≠ 0) ∧
    decode (issued 0x2D800050 (base [])).port.cmd = .error .reservedField := by
  refine ⟨by decide, by decide, by decide, by decide, by decide, by decide, by decide, rfl⟩

/-- A PDU with every field at the widest value its place holds. -/
def widestPdu : Pdu := pduOfBytes (List.replicate 64 0xFF)

theorem test_witness_PduDescriptorRoundTrip :
    (widestPdu.rnti < 2 ^ 16 ∧ widestPdu.bwpStart < 2 ^ 16 ∧ widestPdu.bwpSize < 2 ^ 16 ∧
      widestPdu.rbStart < 2 ^ 16 ∧ widestPdu.rbSize < 2 ^ 16 ∧ widestPdu.startSymbol < 2 ^ 8 ∧
      widestPdu.nrOfSymbols < 2 ^ 8 ∧ widestPdu.mcsIndex < 2 ^ 8 ∧ widestPdu.mcsTable < 2 ^ 8 ∧
      widestPdu.modOrder < 2 ^ 8 ∧ widestPdu.nLayers < 2 ^ 8 ∧ widestPdu.codeRate < 2 ^ 16 ∧
      widestPdu.tbsBytes < 2 ^ 32) ∧
    (widestPdu.harqPid < 2 ^ 8 ∧ widestPdu.ndi < 2 ^ 8 ∧ widestPdu.rv < 2 ^ 8 ∧
      widestPdu.transformPrecoding < 2 ^ 8 ∧ widestPdu.dmrsConfigType < 2 ^ 8 ∧
      widestPdu.numDmrsCdmGrpsNoData < 2 ^ 8 ∧ widestPdu.ulDmrsScramblingId < 2 ^ 16 ∧
      widestPdu.scid < 2 ^ 8 ∧ widestPdu.dmrsDouble < 2 ^ 8 ∧ widestPdu.ptrsK < 2 ^ 8 ∧
      widestPdu.ptrsL < 2 ^ 8 ∧ widestPdu.ptrsReOffset < 2 ^ 8 ∧ widestPdu.ptrsLayer < 2 ^ 8) ∧
    widestPdu.tpmi < 2 ^ 8 ∧ widestPdu.nAnt < 2 ^ 8 ∧ widestPdu.tpcDelta < 2 ^ 8 ∧
    widestPdu.mappingType < 2 ^ 8 ∧ widestPdu.harqAckBits < 2 ^ 16 ∧ widestPdu.csiP1Bits < 2 ^ 16 ∧
    widestPdu.csiP2Bits < 2 ^ 16 ∧ widestPdu.payloadAddr < 2 ^ 32 ∧ widestPdu.frame < 2 ^ 16 ∧
    widestPdu.slot < 2 ^ 8 ∧ widestPdu.reserved < 2 ^ 8 := by decide +kernel

/-! ### Witnesses: the step, faults and reset -/

/-- A state with inputs listed. -/
def listed (l : List Input) (s : State) : State := { s with inputs := l }

/-- The state after a halt. -/
def halt (s : State) : State := s.raiseFault .lockNotHeld

/-- A turn with nothing drawn, one with two draws of one byte, and one of a port that waits for slot 5. -/
theorem test_witness_StepRunsDecodedCommand :
    let s := fun d => listed [.take 0 d, .reset] (issued 0x10000000 (base []))
    let held := listed [.take 0 []] (run .taExpiry (issued 0x10000000 (locked [] 1 1)))
    (∀ d ∈ [[], [(0, 1), (0, 2)]], (s d).inputs = .take 0 d :: [.reset] ∧ 0 < (s d).build.nPorts ∧
      (s d).halted = false ∧ (s d).busyPort 0 = true ∧
      decode ((s d).ports.getD 0 Port.afterReset).cmd = .ok .taExpiry ∧
      ∀ r ∈ (s d).store, 0 ∈ r.waiters → r.lock = none) ∧
    held.inputs = .take 0 [] :: [] ∧ held.halted = false ∧ held.busyPort 0 = true ∧
    decode (held.ports.getD 0 Port.afterReset).cmd = .ok .taExpiry ∧
    ∃ r ∈ held.store, 0 ∈ r.waiters ∧ r.lock ≠ none := by decide +kernel

/-- CMD writes on an idle and on a busy port, an ARG write, and a write of the last DMEM byte. -/
theorem test_witness_AgentWritesTakeEffect :
    let s := listed [.writeCmd 1 0x10000000] (base [])
    let s' := listed [.writeCmd 0 0x10000000] (issued 0x08000000 (base []))
    (s.inputs = .writeCmd 1 0x10000000 :: [] ∧ 1 < s.build.nPorts ∧ s.busyPort 1 = false ∧
      s.halted = false) ∧
    (s'.inputs = .writeCmd 0 0x10000000 :: [] ∧ 0 < s'.build.nPorts ∧ s'.busyPort 0 = true) ∧
    (listed [.setArg 1 3 7] (base [])).inputs = .setArg 1 3 7 :: [] ∧
    (listed [.pokeDmem 1 0x3FFFF 7] (base [])).inputs = .pokeDmem 1 0x3FFFF 7 :: [] ∧
    0x3FFFF < (base []).build.dmemSize :=
  ⟨⟨rfl, by decide, rfl, rfl⟩, ⟨rfl, by decide, rfl⟩, rfl, rfl, by decide⟩
theorem test_witness_HaltedPtbStandsStill :
    (halt (listed [.take 1 []] (base []))).halted = true ∧
    (halt (listed [.take 1 []] (base []))).inputs = .take 1 [] :: [] ∧
    (halt (listed [.writeCmd 1 0] (base []))).inputs = .writeCmd 1 0 :: [] ∧
    (halt (base [])).inputs = [] ∧ 1 < (halt (base [])).build.nPorts :=
  ⟨rfl, rfl, rfl, rfl, by decide⟩
theorem test_witness_ResetLeavesResetValues :
    (listed [.reset, .take 0 []] (halt (base []))).inputs = .reset :: [.take 0 []] := rfl
theorem test_witness_NoStepStopsTheModel :
    (listed [.setArg 1 3 0, .writeCmd 1 0, .pokeDmem 1 0x3FFFF 1, .take 1 [(2 ^ 30, 1)], .reset]
      (base [])).InputsOk := by
  intro i hi
  simp only [listed, List.mem_cons, List.not_mem_nil, or_false] at hi
  rcases hi with rfl | rfl | rfl | rfl | rfl
  · exact (by decide : 1 < tb.nPorts)
  · exact (by decide : 1 < tb.nPorts)
  · exact (by decide : 1 < tb.nPorts ∧ 0x3FFFF < tb.dmemSize)
  · exact (by decide : 1 < tb.nPorts)
  · trivial
theorem test_witness_FlagsClearedByResetOnly :
    let s := listed [.take 0 []] (issued 0x10000000 (base []))
    (∃ t, step s = .next t) ∧ s.inputs = [.take 0 []] ∧ s.cfgValid = true ∧ s.initDone = true ∧
    (halt s).halted = true ∧ ∃ t, step (halt s) = .next t :=
  ⟨⟨_, rfl⟩, rfl, rfl, rfl, rfl, ⟨_, rfl⟩⟩
theorem test_witness_CommandEndsInOneOfThreeWays :
    (base []).halted = false ∧ (locked [] 1 1).halted = false ∧
    (∃ t, exec .taExpiry (base []) = .next t ∧ t.port.busy = false) ∧
    (∃ t, exec .init (base []) = .next t ∧ t.halted = true) ∧
    ∃ t, exec (.ulIterGet 0 5) (arg0 0 (locked [] 1 1)) = .next t ∧ t.port.busy = true :=
  ⟨rfl, rfl, ⟨_, rfl, by decide +kernel⟩, ⟨_, rfl, by decide +kernel⟩, _, rfl, by decide +kernel⟩
theorem test_witness_PrerequisiteFlags :
    (fresh []).halted = false ∧ prerequisite (fresh []) .init = false ∧
    prerequisite (fresh []) (.harqRead 0) = false ∧ prerequisite (fresh []) (.precode 0) = false ∧
    (base []).halted = false ∧ prerequisite (base []) .init = true ∧
    prerequisite (fresh []) (.tpDft 0) = true := by decide

theorem test_witness_CommandsWriteOnlyTheirFootprint :
    (base []).halted = false ∧ (∃ t, exec (.harqRead 3) (arg0 0x3100 (base [])) = .next t ∧ t.halted = false) ∧
    inRegions (accesses (arg0 0x3100 (base [])) (.harqRead 3)).2 0x30FF = false ∧
    inRegions (accesses (arg0 0x3100 (base [])) (.harqRead 3)).2 0x310B = true ∧
    inRegions (accesses (arg0 0x3100 (base [])) (.harqRead 3)).2 0x310C = false :=
  ⟨rfl, ⟨_, rfl, by decide +kernel⟩, by decide +kernel, by decide +kernel, by decide +kernel⟩

/-! ### Witnesses: faults of operands, regions and descriptors -/

/-- A DMEM with a byte string written over it. -/
def poke (m : List Host.Cell) (a : Nat) (bs : List Nat) : List Host.Cell :=
  writeBytes m a (bs.map (BitVec.ofNat 8))

/-- The fault of the first region that CheckRegion refuses. -/
def firstBad (s : State) : List (Nat × Nat × Nat) → Option FaultCode
  | [] => none
  | (a, n, align) :: rest =>
    if 2 ^ 26 ≤ a ∨ s.build.dmemSize < a + n then some .dmemRange
    else if a % align ≠ 0 then some .misaligned
    else firstBad s rest

theorem firstBad_sound {s : State} {l : List (Nat × Nat × Nat)} {c : FaultCode} (h : firstBad s l = some c) :
    FirstBadRegion s l c := by
  induction l with
  | nil => simp [firstBad] at h
  | cons x rest ih =>
    obtain ⟨a, n, align⟩ := x
    unfold firstBad at h
    split at h
    · exact ⟨[], a, n, align, rest, rfl, by simp, .inl ⟨by simpa using h.symm, ‹_›⟩⟩
    · split at h
      · exact ⟨[], a, n, align, rest, rfl, by simp, .inr ⟨by simpa using h.symm, by omega, by omega, ‹_›⟩⟩
      · obtain ⟨pre, b, m, al, post, hl, hp, hc⟩ := ih h
        refine ⟨(a, n, align) :: pre, b, m, al, post, by rw [hl]; rfl, ?_, hc⟩
        simp only [List.forall_mem_cons, RegionOk]
        exact ⟨by omega, hp⟩

/-- Descriptor and record regions one byte beyond DMEM or off their alignment, indices just above their
tables, slot 20, PTYPE 0 and 5. -/
theorem test_witness_OperandFaults :
    (∀ n ∈ [128, 48, 36, 32, 28, 24, 16, 12],
      firstBad (base []) [(4 * (0x10000 - n / 4 + 1), n, 4)] = some .dmemRange) ∧
    (∀ i ∈ [Instr.cfgWrite 0, .bsrEval 0, .mapPusch 0, .grantTarget 0, .puschBuild 0, .layerMap 0, .llr16Qam 0,
      .llr64Qam 0, .llr256Qam 0, .lcConfig 0, .tpDft 0, .lcpRun 0, .precode 0], prerequisite (base []) i = true) ∧
    (∀ n ∈ [12, 24, 64],
      firstBad (base []) [((arg0 (BitVec.ofNat 32 (2 ^ 18 - n + 4)) (base [])).port.arg0.toNat, n, 4)]
        = some .dmemRange ∧
      firstBad (base []) [((arg0 0x1002 (base [])).port.arg0.toNat, n, 4)] = some .misaligned) ∧
    (base []).initDone = true ∧ 15 < 16 ∧ 32 < 33 ∧
    (∀ h ∈ [0x0501, 0x0502], bits h 15 8 < (locked [] 0 2).spf ∧ bits h 7 0 ≤ tb.nPdu ∧
      ((locked [] 0 2).slotRec (bits h 15 8)).lock = some (locked [] 0 2).cur ∧
      bits h 7 0 ≤ ((locked [] 0 2).slotRec (bits h 15 8)).numberPdus) ∧
    bits 0x0501 7 0 < ((locked [] 0 2).slotRec 5).numberPdus ∧ (base []).spf ≤ 20 ∧ 19 < (base []).spf := by
  decide +kernel

/-- LCP_RUN and BSR_EVAL with their outputs beyond DMEM. -/
theorem test_witness_DescriptorRegionsFault :
    let s := base (cells 0x90 [0x71, 0xFE, 3, 0, 0x90, 1] ++
      cells 0xA0 ([0xFF, 0xFF, 3, 0, 2, 0, 0, 0, 100] ++ List.replicate 31 0 ++ [1] ++ List.replicate 7 255))
    let d := lcpDescOfBytes (readBytes s.mem (4 * 0x24) 12)
    let e := bsrDescOfBytes (readBytes s.mem (4 * 0x28) 48)
    (s.initDone = true ∧ RegionOk s (4 * 0x24) 12 4 ∧ d.reserved = 0 ∧ d.frame ≤ 1023 ∧ d.slot < s.spf ∧
      d.buflen ≠ 0 ∧ firstBad s [(d.outAddr, d.buflen, 1)] = some .dmemRange) ∧
    RegionOk s (4 * 0x28) 48 4 ∧
    (∀ g < 8, (1 ≤ e.lcgBestPrio.getD g 255 ∧ e.lcgBestPrio.getD g 255 ≤ 16 ∧ 0 < e.lcgBytes.getD g 0) ∨
      (e.lcgBestPrio.getD g 255 = 255 ∧ e.lcgBytes.getD g 0 = 0)) ∧
    firstBad s [(e.outAddr, min e.space 11, 1)] = some .dmemRange := by decide +kernel

/-- LAYER_MAP with a misaligned second layer, with no symbols and its second layer at 2^26 and misaligned; LLR_64QAM with its output off 2; TP_DFT with its PDU and with its
output beyond DMEM. -/
theorem test_witness_DescriptorRegionsFault_kernels :
    (let s := base (cells 0x2180 [0, 0x25, 0, 0, 6, 0, 0, 0, 2, 0, 0, 0, 0, 0x30, 0, 0, 2, 0x31, 0, 0])
     let d := layerMapDescOfBytes (readBytes s.mem (4 * 0x860) 28)
     RegionOk s (4 * 0x860) 28 4 ∧ d.reserved = 0 ∧ 1 ≤ d.nLayers ∧ d.nLayers ≤ 4 ∧ d.nIn % d.nLayers = 0 ∧
     d.nIn ≠ 0 ∧ firstBad s ((d.inAddr, 4 * d.nIn, 4) ::
       (List.range d.nLayers).map fun v => (d.outAddr.getD v 0, 4 * (d.nIn / d.nLayers), 4)) = some .misaligned) ∧
    (∀ x ∈ [([0, 0, 0, 4], 2 ^ 26), ([2, 0x31], 0x3102)], let (bs, a) := x
     let s := base (cells 0x2180 [0, 0x25, 0, 0, 0, 0, 0, 0, 2, 0, 0, 0, 0, 0x30, 0, 0] ++ cells 0x2190 bs)
     let d := layerMapDescOfBytes (readBytes s.mem (4 * 0x860) 28)
     RegionOk s (4 * 0x860) 28 4 ∧ d.reserved = 0 ∧ d.nIn = 0 ∧ d.nLayers = 2 ∧
     d.inAddr :: (List.range d.nLayers).map (fun v => d.outAddr.getD v 0) = [0x2500, 0x3000] ++ a :: [] ∧
     ∀ b ∈ [0x2500, 0x3000], b < 2 ^ 26 ∧ b % 4 = 0) ∧
    (let s := base (cells 0x6000 [0, 0x61, 0, 0, 0, 0x62, 0, 0, 0, 0x64, 0, 0, 0, 0x65, 0, 0, 1, 0x63, 0, 0, 2])
     let d := llrDescOfBytes (readBytes s.mem (4 * 0x1800) 24)
     RegionOk s (4 * 0x1800) 24 4 ∧ d.nbRe ≤ 65535 ∧
     firstBad s ((d.rxAddr, 4 * d.nbRe, 4) :: ((List.range 2).map fun k => (d.magAddr.getD k 0, 4 * d.nbRe, 4)) ++
       [(d.outAddr, 2 * (2 * (2 + 1)) * d.nbRe, 2)]) = some .misaligned) ∧
    (let s := fun bs => ({ tpState with mem := poke tpState.mem 0x2260 bs } : State)
     let t := fun bs => tpDescOfBytes (readBytes (s bs).mem (4 * 0x898) 16)
     let far := [0xC4, 0xFF, 3]
     let out := [0, 0x21, 0, 0, 0, 0x40, 0, 0, 0xC4, 0xFF, 3, 0, 156]
     (RegionOk (s far) (4 * 0x898) 16 4 ∧ firstBad (s far) [((t far).pduAddr, 64, 4)] = some .dmemRange) ∧
     RegionOk (s out) (4 * 0x898) 16 4 ∧ RegionOk (s out) (t out).pduAddr 64 4 ∧
     (readPdu (s out) (t out).pduAddr).legal (s out).cfg = true ∧
     (readPdu (s out) (t out).pduAddr).transformPrecoding = 1 ∧ (readPdu (s out) (t out).pduAddr).rbSize = 1 ∧
     smooth235 12 = true ∧ (t out).n = 12 * (14 - popcount (readPdu (s out) (t out).pduAddr).ulDmrsSymbPos) ∧
     firstBad (s out) [((t out).inAddr, 4 * (t out).n, 4), ((t out).outAddr, 4 * (t out).n, 4)]
       = some .dmemRange) := by decide +kernel

/-- MAP_PUSCH and PRECODE of P5 with the PDU and with the grid beyond DMEM. -/
theorem test_witness_DescriptorRegionsFault_grids :
    let s := fun a bs => base (poke p5Mem a bs)
    (let d := fun a bs => mapDescAt (s a bs) 0x880
     let b := mapBundleAt (s 0x2222 [4]) 0x880
     (s 0x2222 [4]).cfgValid = true ∧ RegionOk (s 0x2222 [4]) (4 * 0x880) 36 4 ∧
     firstBad (s 0x2202 [4]) [((d 0x2202 [4]).pduAddr, 64, 4)] = some .dmemRange ∧
     RegionOk (s 0x2222 [4]) (d 0x2222 [4]).pduAddr 64 4 ∧ (mapPduAt (s 0x2222 [4]) 0x880).legal c1 = true ∧
     firstBad (s 0x2222 [4]) (((List.range b.layers).map fun v =>
         ((d 0x2222 [4]).dataAddr.getD v 0, 4 * (d 0x2222 [4]).dataLen, 4)) ++
       [((d 0x2222 [4]).dmrsAddr, 4 * (b.dm.length * b.j), 4)] ++
       (if b.pt = [] then [] else [((d 0x2222 [4]).ptrsAddr, 4 * (b.pt.length * b.nPt), 4)]) ++
       [((d 0x2222 [4]).gridAddr, 4 * (b.layers * 14 * c1.fftSize), 4)]) = some .dmemRange) ∧
    (let d := fun a bs => precodeDescOfBytes (readBytes (s a bs).mem (4 * 0x890) 12)
     let p := readPdu (s 0x2248 [1]) (d 0x2248 [1]).pduAddr
     (s 0x2248 [1]).cfgValid = true ∧ RegionOk (s 0x2248 [1]) (4 * 0x890) 12 4 ∧
     firstBad (s 0x2242 [4]) [((d 0x2242 [4]).pduAddr, 64, 4)] = some .dmemRange ∧
     RegionOk (s 0x2248 [1]) (d 0x2248 [1]).pduAddr 64 4 ∧ p.legal c1 = true ∧ p.nAnt = c1.nAnt ∧
     p.nLayers ≤ p.nAnt ∧ p.tpmi = 0 ∧
     firstBad (s 0x2248 [1]) [((d 0x2248 [1]).layerGridAddr, 4 * (p.nLayers * 14 * c1.fftSize), 4),
       ((d 0x2248 [1]).antGridAddr, 4 * (p.nAnt * 14 * c1.fftSize), 4)] = some .misaligned) := by decide +kernel

/-- Each bad field of an LC config descriptor; an LCP output on its descriptor's last byte and its bad fields;
inconsistent totals and a BSR on its descriptor. -/
theorem test_witness_DescriptorChecksFault :
    (∀ bs ∈ [[4, 1, 1, 1, 0, 0, 0, 0, 0, 0, 0, 0, 0, 0, 0, 1], [33, 1, 1, 1], [4, 0], [4, 17], [4, 1, 8], [4, 1, 1, 4],
        [4, 1, 1, 1, 0, 0, 0, 0, 0, 0, 0, 128], [4, 1, 1, 1, 0, 0, 0, 0, 0, 0, 0, 0, 0, 4],
        [4, 1, 1, 1, 0, 0, 0, 0, 0, 0, 0, 0, 0, 0, 20]],
      let s := base (cells 0x80 bs)
      let d := lcDescOfBytes (readBytes s.mem (4 * 0x20) 16)
      s.initDone = true ∧ RegionOk s (4 * 0x20) 16 4 ∧
      (d.reserved ≠ 0 ∨ 32 < d.lcid ∨ d.priority = 0 ∨ 16 < d.priority ∨ 7 < d.lcg ∨ 4 ≤ d.flags ∨
        2 ^ 31 ≤ d.bucketSize ∨ 1023 < d.frame ∨ s.spf ≤ d.slot)) ∧
    (∀ bs ∈ [[0x9B, 0, 0, 0, 1], [0, 1, 0, 0, 1, 0, 0, 0, 0, 4], [0, 1, 0, 0, 1, 0, 0, 0, 0, 0, 20],
        [0, 1, 0, 0, 1, 0, 0, 0, 0, 0, 0, 1], [0, 1]],
      let s := base (cells 0x90 bs)
      let d := lcpDescOfBytes (readBytes s.mem (4 * 0x24) 12)
      s.initDone = true ∧ RegionOk s (4 * 0x24) 12 4 ∧
      (d.reserved ≠ 0 ∨ 1023 < d.frame ∨ s.spf ≤ d.slot ∨ d.buflen = 0 ∨
        (RegionOk s d.outAddr d.buflen 1 ∧ overlaps (d.outAddr, d.buflen) (4 * 0x24, 12) = true))) ∧
    (∀ pb ∈ [(17, 1), (0, 1), (255, 1), (1, 0)],
      let s := base (cells 0xA0 ([0, 0x60, 0, 0, 5, 0, 0, 0, pb.2] ++ List.replicate 31 0 ++ [pb.1] ++
        List.replicate 7 255))
      let d := bsrDescOfBytes (readBytes s.mem (4 * 0x28) 48)
      RegionOk s (4 * 0x28) 48 4 ∧ ¬((1 ≤ d.lcgBestPrio.getD 0 255 ∧ d.lcgBestPrio.getD 0 255 ≤ 16 ∧
        0 < d.lcgBytes.getD 0 0) ∨ (d.lcgBestPrio.getD 0 255 = 255 ∧ d.lcgBytes.getD 0 0 = 0))) ∧
    (let s := base (cells 0xA0 ([0xCF, 0, 0, 0, 2, 0, 0, 0, 9] ++ List.replicate 31 0 ++ [1] ++ List.replicate 7 255))
     let d := bsrDescOfBytes (readBytes s.mem (4 * 0x28) 48)
     RegionOk s (4 * 0x28) 48 4 ∧ RegionOk s d.outAddr (min d.space 11) 1 ∧ bsrFormat d.space 1 = 1 ∧
     overlaps (d.outAddr, 2) (4 * 0x28, 48) = true) := by
  decide +kernel

/-- LAYER_MAP with no and with five layers, an odd number of symbols on two layers, and a layer on the other's
last symbol; an LLR of 65536 REs and one whose output starts on the last byte of the descriptor's. -/
theorem test_witness_DescriptorChecksFault_kernels :
    (let s := fun n l o => base (cells 0x2180 [0, 0x25, 0, 0, n, 0, 0, 0, l, 0, 0, 0, 0, 0x30, 0, 0, o, 0x30, 0, 0])
     let d := fun n l o => layerMapDescOfBytes (readBytes (s n l o).mem (4 * 0x860) 28)
     (∀ n l o, (s n l o).build = tb) ∧ RegionOk (s 6 2 8) (4 * 0x860) 28 4 ∧ (d 6 0 0).nLayers = 0 ∧
     4 < (d 6 5 0).nLayers ∧ (d 5 2 0).nIn % (d 5 2 0).nLayers ≠ 0 ∧ (d 6 2 8).nIn % (d 6 2 8).nLayers = 0 ∧
     (d 6 2 8).reserved = 0 ∧ RegionOk (s 6 2 8) (d 6 2 8).inAddr (4 * 6) 4 ∧
     (∀ v < 2, RegionOk (s 6 2 8) ((d 6 2 8).outAddr.getD v 0) (4 * 3) 4) ∧
     overlaps ((d 6 2 8).outAddr.getD 1 0, 4 * 3) ((d 6 2 8).outAddr.getD 0 0, 4 * 3) = true) ∧
    (let s := fun o n => base (cells 0x6000 [0, 0x61, 0, 0, 0, 0x62, 0, 0, 0, 0x64, 0, 0, 0, 0x65, 0, 0] ++
       cells 0x6010 (o ++ [0, 0, 2, 0, n]))
     let d := fun o n => llrDescOfBytes (readBytes (s o n).mem (4 * 0x1800) 24)
     RegionOk (s [0x16, 0x60] 0) (4 * 0x1800) 24 4 ∧ 65535 < (d [0x16, 0x60] 1).nbRe ∧
     (d [0x16, 0x60] 0).nbRe = 2 ∧ RegionOk (s [0x16, 0x60] 0) (d [0x16, 0x60] 0).rxAddr (4 * 2) 4 ∧
     (∀ k < 3, RegionOk (s [0x16, 0x60] 0) ((d [0x16, 0x60] 0).magAddr.getD k 0) (4 * 2) 4) ∧
     RegionOk (s [0x16, 0x60] 0) (d [0x16, 0x60] 0).outAddr (2 * 8 * 2) 2 ∧
     overlaps ((d [0x16, 0x60] 0).outAddr, 2 * 8 * 2) (4 * 0x1800, 24) = true) := by
  refine ⟨⟨fun _ _ _ => rfl, by decide +kernel⟩, by decide +kernel⟩

/-- TP_DFT with a PDU without transform precoding, of 7 RBs, of a wrong length, and with overlapping regions. -/
theorem test_witness_DescriptorChecksFault_tpDft :
    let s := fun a bs => ({ tpState with mem := poke tpState.mem a bs } : State)
    let t := fun a bs => tpDescOfBytes (readBytes (s a bs).mem (4 * 0x898) 16)
    let p := fun a bs => readPdu (s a bs) (t a bs).pduAddr
    (∀ x ∈ [(0x210A, 7), (0x226C, 157), (0x2268, 4)], let (a, b) := x
      RegionOk (s a [b]) (4 * 0x898) 16 4 ∧ RegionOk (s a [b]) (t a [b]).pduAddr 64 4 ∧
      (p a [b]).legal c1 = true ∧ (p a [b]).transformPrecoding = 1) ∧
    (readPdu (base p5Mem) 0x2100).transformPrecoding ≠ 1 ∧ (p 0x2100 [1, 1]).legal c1 = false ∧
    smooth235 (12 * (p 0x210A [7]).rbSize) = false ∧
    (smooth235 12 = true ∧ (p 0x226C [157]).rbSize = 1 ∧
      (t 0x226C [157]).n ≠ 12 * (14 - popcount (p 0x226C [157]).ulDmrsSymbPos)) ∧
    (let u := t 0x2268 [4, 0x40]
     u.n = 156 ∧ RegionOk (s 0x2268 [4, 0x40]) u.inAddr (4 * u.n) 4 ∧
     RegionOk (s 0x2268 [4, 0x40]) u.outAddr (4 * u.n) 4 ∧ u.inAddr ≠ u.outAddr ∧
     overlaps (u.outAddr, 4 * u.n) (u.inAddr, 4 * u.n) = true) := by decide +kernel

/-- MAP_PUSCH and PRECODE of P5 with a reserved PDU byte, with the grid on the PDU, and with a wrong length. -/
theorem test_witness_DescriptorChecksFault_grids :
    let s := fun a bs => base (poke p5Mem a bs)
    ((∀ x ∈ [(0x213F, [1]), (0x2220, [4, 0x21, 0]), (0x2214, [19])], let (a, bs) := x
        (s a bs).cfgValid = true ∧ RegionOk (s a bs) (4 * 0x880) 36 4 ∧
        RegionOk (s a bs) (mapDescAt (s a bs) 0x880).pduAddr 64 4) ∧
      (mapPduAt (s 0x213F [1]) 0x880).legal c1 = false ∧
      (∀ x ∈ [(0x2220, [4, 0x21]), (0x2214, [19])], let (a, bs) := x
        let d := mapDescAt (s a bs) 0x880
        let b := mapBundleAt (s a bs) 0x880
        (mapPduAt (s a bs) 0x880).legal c1 = true ∧ b.layers = 1 ∧ b.pt = [] ∧
        RegionOk (s a bs) (d.dataAddr.getD 0 0) (4 * d.dataLen) 4 ∧
        RegionOk (s a bs) d.dmrsAddr (4 * (b.dm.length * b.j)) 4 ∧
        RegionOk (s a bs) d.gridAddr (4 * (b.layers * 14 * c1.fftSize)) 4) ∧
      (∀ x ∈ [(0x2220, [4, 0x21, 0])], let (a, bs) := x
        overlaps ((mapDescAt (s a bs) 0x880).gridAddr, 4 * (1 * 14 * 1024)) (0x2100, 64) = true) ∧
      (mapDescAt (s 0x2214 [19]) 0x880).dataLen ≠ (mapBundleAt (s 0x2214 [19]) 0x880).nData) ∧
    (let p := fun a bs => readPdu (s a bs) 0x2100
     let d := fun a bs => precodeDescOfBytes (readBytes (s a bs).mem (4 * 0x890) 12)
     RegionOk (s 0x2248 []) (4 * 0x890) 12 4 ∧ (p 0x212D [2]).nAnt ≠ c1.nAnt ∧
     (p 0x2248 [4, 0, 1]).legal c1 = true ∧ (p 0x2248 [4, 0, 1]).tpmi = 0 ∧
     (d 0x2248 [4, 0, 1]).pduAddr = 0x2100 ∧
     RegionOk (s 0x2248 [4, 0, 1]) (d 0x2248 [4, 0, 1]).layerGridAddr (4 * (1 * 14 * 1024)) 4 ∧
     RegionOk (s 0x2248 [4, 0, 1]) (d 0x2248 [4, 0, 1]).antGridAddr (4 * (1 * 14 * 1024)) 4 ∧
     overlaps ((d 0x2248 [4, 0, 1]).antGridAddr, 4 * (1 * 14 * 1024))
       ((d 0x2248 [4, 0, 1]).layerGridAddr, 4 * (1 * 14 * 1024)) = true) := by decide +kernel

/-! ### Waiting, races and fairness -/

/-- Port 0 waits for slot 5 with UL_ITER_GET; its lock is held by port 1 or is FREE again. -/
def waiting (lock : Option Nat) : State :=
  let s := run (.ulIterGet 0 5) (issued 0x2C000050 (locked [] 1 1))
  { s with inputs := [.take 0 []], store := s.store.modify 5 fun r => { r with lock := lock } }

/-- A port that waits stays held although its slot is no uplink slot any more, and ends with -1 once the lock
is FREE. -/
theorem test_held_until_free :
    let s := fun l => ({ waiting l with cfg := { c1 with duplex := 1 } } : State)
    (out (step (s (some 1))) (s none)).port.busy = true ∧ (out (step (s (some 1))) (s none)).errLog = [] ∧
    (out (step (s none)) (s none)).port.status = -1 ∧ (out (step (s none)) (s none)).port.busy = false := by
  decide +kernel

/-- A drawn byte is read as drawn and keeps its stored value; a drawn byte that is written is written. -/
theorem test_drawn_bytes :
    let s := base (cells 0x2180 [0, 0x25, 0, 0, 6, 0, 0, 0, 2, 0, 0, 0, 0, 0x30, 0, 0, 0, 0x31, 0, 0]
      ++ cells 0x2500 [1, 0, 0, 0, 2, 0, 0, 0, 3, 0, 0, 0, 4, 0, 0, 0])
    let t := out (step (listed [.take 0 [(0x250C, 9), (0x3105, 7)]] (issued 0x60000860 s))) s
    readC16 t.mem 0x3104 = ⟨9, 0⟩ ∧ readByte t.mem 0x250C = 4 := by decide +kernel

/-- The state in which the waiting port has been granted its lock. -/
@[irreducible] def fairEnd : State := out (step (waiting none)) (waiting none)

/-- A run in which the waiting port is granted its lock, and then nothing is issued. -/
def fairRun : Nat → State
  | 0 => waiting none
  | n + 1 => { fairEnd with draws := n }

theorem fairRun_idle (n p : Nat) : (fairRun (n + 1)).enabled p = false := by
  have h : ∀ q ∈ (fairRun (n + 1)).ports, q.busy = false := by
    show ∀ q ∈ fairEnd.ports, q.busy = false
    decide +kernel
  have hb : (fairRun (n + 1)).busyPort p = false := by
    rw [State.busyPort, List.getD_eq_getElem?_getD]
    cases hq : (fairRun (n + 1)).ports[p]? with
    | none => rfl
    | some q => exact h q (List.mem_of_getElem? hq)
  simp [State.enabled, hb]

theorem test_fair_run : IsRun fairRun ∧ WeaklyFair fairRun ∧ DrawsAreRaces fairRun ∧
    0 ∈ ((fairRun 0).slotRec 5).waiters ∧ ((fairRun 1).slotRec 5).lock = some 0 := by
  refine ⟨fun n => ?_, fun n k h => ?_, fun n p drawn h => ?_, by decide +kernel, by decide +kernel⟩
  · cases n with
    | zero =>
      have hn : (match step (waiting none) with | .next t => t.draws == 0 | _ => false) = true := by
        decide +kernel
      show step (waiting none) = .next { fairEnd with draws := 0 }
      unfold fairEnd
      generalize step (waiting none) = o at hn ⊢
      match o, hn with
      | .next t, hn =>
        have ht : t.draws = 0 := by simpa using hn
        exact congrArg Host.Outcome.next (by rw [← ht]; rfl)
    | succ n =>
      have hi : fairEnd.inputs = [] := by decide +kernel
      have hh : fairEnd.halted = false := by decide +kernel
      exact step_of_idle (s := { fairEnd with draws := n }) hi hh (fairRun_idle n)
  · obtain ⟨-, p, -, he⟩ := h (n + 1) (Nat.le_succ n)
    rw [fairRun_idle] at he
    exact absurd he (by decide)
  · cases n with
    | zero =>
      have hd : (fairRun 0).turnStep = some (0, []) := by decide +kernel
      rw [hd] at h
      obtain ⟨-, rfl⟩ := Prod.mk.inj (Option.some.inj h)
      intro c hc
      cases hc
    | succ n =>
      have hi : (fairRun (n + 1)).inputs = [] := by
        show fairEnd.inputs = []
        decide +kernel
      rw [State.turnStep, hi] at h
      simp [fairRun_idle] at h

/-- A byte drawn to a number of layers that makes LAYER_MAP fault is a byte its step reads; it keeps its stored
value. -/
theorem test_torn_descriptor :
    let s := listed [.take 0 [(0x2188, 9)]]
      (issued 0x60000860 (base (cells 0x2180 [0, 0x25, 0, 0, 6, 0, 0, 0, 2, 0, 0, 0, 0, 0x30, 0, 0, 0, 0x31, 0, 0])))
    let t := out (step s) s
    t.faultCode = 0x0F ∧ readByte t.mem 0x2188 = 2 ∧ inRegions (s.regions t).1 0x2188 = true ∧
    (s.regions t).2 = [] := by decide +kernel

/-! ### Witnesses: the invariants -/

/-- A state whose next step runs a command that ends normally. -/
def busyState : State := listed [.take 0 []] (issued 0x10000000 (base [(0x3FFFF, 1)]))

theorem busyState_steps : ∃ t, step busyState = .next t := ⟨_, rfl⟩
theorem freshSlot_ok (k : Nat) : (SlotRec.fresh 2 k).Ok tb k where
  count := Nat.zero_le _
  entries := by simp [SlotRec.fresh, tb, Build.nPdu]
  tag := rfl
  holder := by simp [SlotRec.fresh]
  types := by simp [SlotRec.fresh]
  payloads := by simp [SlotRec.fresh, Entry.fresh]
theorem test_witness_StepKeepsRegistersLegal :
    (∃ t, step busyState = .next t) ∧ busyState.ShapeInv ∧ busyState.FaultInv ∧ (halt busyState).FaultInv ∧
    busyState.ConfigInv ∧ busyState.HarqInv := by
  refine ⟨busyState_steps, by decide +kernel, ⟨fun _ => by decide, fun h => ?_⟩, ⟨by decide, fun _ => ?_⟩,
    ⟨fun _ => by decide +kernel, fun _ => rfl⟩, fun h hh => ?_⟩
  · exact absurd h (by decide)
  · exact ⟨.lockNotHeld, rfl⟩
  · have hr : h = HarqEntry.afterReset tb := List.eq_of_mem_replicate hh
    subst hr
    constructor <;> decide
theorem test_witness_StepKeepsStoreSound : (∃ t, step busyState = .next t) ∧ busyState.StoreInv := by
  refine ⟨busyState_steps, by decide, fun _ => ⟨rfl, fun k hk => ?_⟩⟩
  have hs : busyState.spf = 20 := by decide +kernel
  have hr : busyState.slotRec k = SlotRec.fresh 2 k := by
    rw [hs] at hk
    simp [State.slotRec, busyState, listed, issued, base, freshStore, hk]
  rw [hr]
  exact freshSlot_ok k
theorem test_witness_StepKeepsBucketsInRange : (∃ t, step busyState = .next t) ∧ busyState.LcInv := by
  refine ⟨busyState_steps, by decide, fun l hl => ?_⟩
  have hs : busyState.spf = 20 := by decide +kernel
  have h : l = lc4 ∨ l = LcEntry.afterReset := by
    have : ∀ l ∈ busyState.lc, l = lc4 ∨ l = LcEntry.afterReset := by decide +kernel
    exact this l hl
  rcases h with rfl | rfl <;> constructor <;> simp [lc4, LcEntry.afterReset, hs]
theorem test_witness_StepKeepsDmemCanonical : (∃ t, step busyState = .next t) ∧ busyState.ConfigInv ∧
    busyState.MemInv := by
  refine ⟨busyState_steps, ⟨fun _ => by decide +kernel, fun _ => rfl⟩, by decide, by decide⟩

/-- A legal CFG, PDU and transform size, and one number at the end of its range. -/
theorem test_witness_LegalValuesAreTheListed :
    c1.legal = true ∧ (pduOfBytes (p5Pdu.map (BitVec.ofNat 8))).legal c1 = true ∧
    2 ^ 32 - 1 < 2 ^ 32 ∧ smooth235 (2 ^ 31) = true ∧ smooth235 (2 ^ 32 - 1) = false := by decide +kernel

/-! ### Witnesses: configuration and the store -/

/-- The descriptor of P1; reserved byte 0x27, reserved bytes 0x3C to 0x3F, an illegal field, and another `mu`
after INIT. -/
theorem test_witness_CfgWriteLoadsOrRefuses :
    let s := base (cells 0 p1Cfg)
    (RegionOk s (4 * 0) 128 4 ∧ memRead s.mem (4 * 0 + 0x27) 1 = 0 ∧ memRead s.mem (4 * 0 + 0x3C) 4 = 0 ∧
      (cfgOfBytes (readBytes s.mem (4 * 0) 128)).legal = true ∧
      (cfgOfBytes (readBytes s.mem (4 * 0) 128)).mu = s.cfg.mu) ∧
    RegionOk (base (cells 0 (p1Cfg.set 0x27 1))) (4 * 0) 128 4 ∧
    memRead (base (cells 0 (p1Cfg.set 0x27 1))).mem (4 * 0 + 0x27) 1 ≠ 0 ∧
    memRead (base (cells 0 (p1Cfg.set 0x3F 1))).mem (4 * 0 + 0x3C) 4 ≠ 0 ∧
    (cfgOfBytes (readBytes (base (cells 0 (p1Cfg.set 0 5))).mem (4 * 0) 128)).legal = false ∧
    (base (cells 0 (p1Cfg.set 0 2))).initDone = true ∧
    (cfgOfBytes (readBytes (base (cells 0 (p1Cfg.set 0 2))).mem (4 * 0) 128)).mu ≠ c1.mu := by decide +kernel
theorem test_witness_InitBuildsTheStore : (fresh []).cfgValid = false ∧
    ((base []).cfgValid = true ∧ (base []).initDone = true) ∧
    (({ base [] with initDone := false } : State).cfgValid = true ∧
      ({ base [] with initDone := false } : State).initDone = false) ∧
    19 < 10 * 2 ^ (base []).cfg.mu := by decide +kernel

/-- A slot with room, an empty one and a stale one. -/
theorem test_witness_UlLockGetReservesAnEntry :
    (base []).initDone = true ∧ 19 < (base []).spf ∧ 19 < 256 ∧ 19 < (base []).store.length ∧ 1 ≤ 4 ∧ 4 ≤ 4 ∧
    (base []).ulSlot 19 = true ∧ ((base []).slotRec 19).lock = none ∧
    ((base []).slotRec 19).numberPdus < (base []).build.nPdu ∧
    (let s : State := { locked [] 0 2 with store := (locked [] 0 2).store.map fun r => { r with lock := none } }
     s.initDone = true ∧ 5 < s.spf ∧ 5 < s.store.length ∧ s.ulSlot 5 = true ∧ (s.slotRec 5).lock = none ∧
      (s.slotRec 5).numberPdus ≠ 0 ∧ (s.slotRec 5).tagFrame ≠ 1023 ∧ 0 < s.build.nPdu) := by decide +kernel

/-- TDD with no uplink slot, and a full slot for the frame of its tag. -/
theorem test_witness_AcquiringCommandsReturnNull :
    (let s : State := { base [] with cfg := { c1 with duplex := 1 } }
     s.initDone = true ∧ 19 < s.spf ∧ s.ulSlot 19 = false) ∧
    (let s : State := { locked [] 0 2 with store := (locked [] 0 2).store.map fun r => { r with lock := none } }
     s.initDone = true ∧ 5 < s.spf ∧ s.ulSlot 5 = true ∧ 5 < s.store.length ∧ (s.slotRec 5).lock = none ∧
      (s.slotRec 5).tagFrame = 0 ∧ (s.slotRec 5).tagSlot = 5 ∧
      s.build.nPdu ≤ (s.slotRec 5).numberPdus) := by decide +kernel

/-- The lock held by the issuing port, and by another. -/
theorem test_witness_AcquiringCommandsWaitOrDeadlock :
    ((locked [] 0 1).initDone = true ∧ 5 < (locked [] 0 1).spf ∧ 5 < (locked [] 0 1).store.length ∧
      (locked [] 0 1).ulSlot 5 = true) ∧
    ((locked [] 0 1).slotRec 5).lock = some (locked [] 0 1).cur ∧
    ((locked [] 1 1).slotRec 5).lock = some 1 ∧ 1 ≠ (locked [] 1 1).cur ∧
    (∀ k < (locked [] 1 1).spf, ((locked [] 1 1).slotRec k).lock ≠ some (locked [] 1 1).cur) := by
  decide +kernel

/-- The null handle; the slot just above spf, the entry just above N_PDU; the last slot and entry FREE; the
entry at the count (0x0501) and above it (0x0502) with the lock held. For PUSCH_BUILD also each reserved byte, frame
1024, slot 20 and `payload_addr` 2^26. -/
theorem test_witness_HandleChecksInOrder :
    (base []).initDone = true ∧ 0x1400 ≠ 0xFFFF ∧ (base []).spf ≤ bits 0x1400 15 8 ∧ (base []).build.nPdu < bits 0x0503 7 0 ∧
    (bits 0x1302 15 8 < (base []).spf ∧ bits 0x1302 7 0 ≤ (base []).build.nPdu ∧
      ((base []).slotRec (bits 0x1302 15 8)).lock ≠ some (base []).cur) ∧
    (∀ h ∈ [0x0501, 0x0502], bits h 15 8 < (locked [] 0 1).spf ∧ bits h 7 0 ≤ tb.nPdu ∧
      ((locked [] 0 1).slotRec (bits h 15 8)).lock = some (locked [] 0 1).cur ∧
      ((locked [] 0 1).slotRec (bits h 15 8)).numberPdus ≤ bits h 7 0) ∧
    ((locked [] 0 1).slotRec 5).numberPdus < bits 0x0502 7 0 ∧
    (let s := fun v => arg0 v (locked (cells 0x100 p2Grant) 0 1)
     ((s 0).initDone = true ∧ RegionOk (s 0) (4 * 0x40) 32 4 ∧ memRead (s 0).mem (4 * 0x40 + 0x13) 1 = 0 ∧
      memRead (s 0).mem (4 * 0x40 + 0x1E) 2 = 0 ∧ memRead (s 0).mem (4 * 0x40 + 0x14) 4 < 2 ^ 26 ∧
      memRead (s 0).mem (4 * 0x40 + 0x06) 2 ≤ 1023 ∧ memRead (s 0).mem (4 * 0x40 + 0x08) 1 < (s 0).spf) ∧
     (let m := fun a b => (base (cells a [b])).mem
      memRead (m 0x113 1) (4 * 0x40 + 0x13) 1 ≠ 0 ∧ memRead (m 0x11F 1) (4 * 0x40 + 0x1E) 2 ≠ 0 ∧
      1023 < memRead (m 0x107 4) (4 * 0x40 + 0x06) 2 ∧ (base []).spf ≤ memRead (m 0x108 20) (4 * 0x40 + 0x08) 1 ∧
      2 ^ 26 ≤ memRead (m 0x117 4) (4 * 0x40 + 0x14) 4) ∧
     (s 0xFFFFFFFF).port.arg0.toNat = 0xFFFFFFFF ∧ (s 0xFFFF).port.arg0.toNat = 0xFFFF ∧
     2 ^ 16 ≤ (s 0x10000).port.arg0.toNat ∧ (s 0x1302).port.arg0.toNat = 0x1302 ∧
     ((s 0x1302).slotRec 0x13).lock ≠ some (s 0x1302).cur ∧ (s 0x0501).port.arg0.toNat = 0x0501 ∧
     ((s 0x0501).slotRec 5).lock = some (s 0x0501).cur ∧ ((s 0x0501).slotRec 5).numberPdus ≤ 1) := by
  decide +kernel

/-- A handle of the lock holder, its entry just above the count, and a count of 0 and of 1. -/
theorem test_witness_UlReleaseAndRemoveLast :
    ∀ n < 2, (locked [] 0 n).initDone = true ∧ 0x0502 ≠ 0xFFFF ∧ bits 0x0502 15 8 < (locked [] 0 n).spf ∧
      bits 0x0502 7 0 ≤ tb.nPdu ∧
      ((locked [] 0 n).slotRec (bits 0x0502 15 8)).lock = some (locked [] 0 n).cur ∧
      ((locked [] 0 n).slotRec (bits 0x0502 15 8)).numberPdus = n := by decide +kernel
theorem test_witness_UlIterGetWritesTheSentinel :
    (base []).initDone = true ∧ 19 < (base []).spf ∧ 19 < (base []).store.length ∧
    (base []).ulSlot 19 = true ∧ ((base []).slotRec 19).lock = none := by decide +kernel

/-- The last 64 bytes of DMEM, the last reserved entry (0x0501) and the entry after it (0x0502). -/
theorem test_witness_UlPduWriteAndReadCopyPayloads :
    let s := arg0 0x3FFC0 (locked [] 0 2)
    ∀ h ∈ [0x0501, 0x0502], s.initDone = true ∧ h ≠ 0xFFFF ∧ bits h 15 8 < s.spf ∧ bits h 7 0 ≤ s.build.nPdu ∧
      (s.slotRec (bits h 15 8)).lock = some s.cur ∧ RegionOk s s.port.arg0.toNat 64 4 ∧
      (h = 0x0501 → bits h 7 0 < (s.slotRec (bits h 15 8)).numberPdus) ∧
      bits h 7 0 ≤ (s.slotRec (bits h 15 8)).numberPdus := by decide +kernel
theorem test_witness_HeldSlotIsLeftToItsHolder :
    (locked [] 1 1).initDone = true ∧ 5 < (locked [] 1 1).spf ∧ ((locked [] 1 1).slotRec 5).lock = some 1 ∧
    1 ≠ (locked [] 1 1).cur ∧ ∃ t, exec (.ulIterGet 0 5) (locked [] 1 1) = .next t :=
  ⟨rfl, by decide +kernel, by decide +kernel, by decide, _, rfl⟩

/-! ### Witnesses: logical channels and the MAC PDU -/

/-- Channel 4 reconfigured (L5: bucket 300), released, and channel 32 configured new at its widest. -/
theorem test_witness_LcConfigWritesTheChannel :
    let ok := fun (bs : List Nat) =>
      let s := base (cells 0x80 bs)
      let d := lcDescOfBytes (readBytes s.mem (4 * 0x20) 16)
      s.initDone = true ∧ s.lc.length = 33 ∧ RegionOk s (4 * 0x20) 16 4 ∧ d.reserved = 0 ∧ d.lcid ≤ 32 ∧
      1 ≤ d.priority ∧ d.priority ≤ 16 ∧ d.lcg ≤ 7 ∧ d.flags < 4 ∧ d.bucketSize < 2 ^ 31 ∧ d.frame ≤ 1023 ∧
      d.slot < s.spf
    ok [4, 1, 1, 1, 0x64, 0, 0, 0, 0x2C, 1, 0, 0] ∧ ok [4, 1, 1, 0] ∧
    ok [32, 16, 7, 3, 1, 0, 0, 0, 255, 255, 255, 127, 255, 3, 19, 0] := by decide +kernel
theorem test_witness_CreditIsMonotoneAndCapped :
    0 < 20 ∧ lc4.lastUpdate < 1024 * 20 ∧ 20479 < 1024 * 20 ∧ lc4.pbrInf = false ∧ lc4.bj ≤ lc4.bucketSize ∧
    ({ lc4 with pbrInf := true } : LcEntry).pbrInf = true := by decide

/-- A first-pass request that the RLC answers with 500 bytes, one with no space, and one it answers with none. -/
theorem test_witness_LcpPassesEnd :
    let s : State := { base [] with
      lc := (base []).lc.set 4 { lc4 with pbrInf := true }
      rlc := [⟨0, List.replicate 500 1⟩, ⟨7, []⟩] }
    let r : LcpProgress := ⟨s, 400, [], [4], 0⟩
    r.remain + 2 ≤ 402 ∧ 3 < r.remain ∧ 4 < r.st.lc.length ∧ (r.st.lcEntry 4).pbrInf = true ∧
    0 < (r.remain : Int) - 3 ∧ (r.st.rlc.getD 0 default).data ≠ [] ∧ ({ r with remain := 3 } : LcpProgress).remain ≤ 3 ∧
    (r.st.rlc.getD 1 default).data = [] := by decide +kernel

/-- A state whose LCP descriptor at 0x90 is the one of program P6. -/
def lcpState : State := base (cells 0x90 [0, 0x50, 0, 0, 0x90, 1, 0, 0, 0, 0, 2, 0])

/-- Channel 4 has 10 bytes and is served them; then nothing is left. -/
theorem test_witness_LcpPassesEnd_run :
    let s : State := { lcpState with rlc := [⟨10, []⟩, ⟨0, List.replicate 10 1⟩, ⟨0, []⟩, ⟨0, []⟩] }
    s.halted = false ∧ ∃ t, exec (.lcpRun 0x24) s = .next t ∧ t.halted = false ∧ t.port.res0 = 12 ∧
      readBytes t.mem 0x5000 3 = [4, 10, 1] := ⟨rfl, _, rfl, by decide +kernel⟩
theorem test_witness_LcpRunBuildsOneMacPdu :
    let d := lcpDescOfBytes (readBytes lcpState.mem (4 * 0x24) 12)
    lcpState.LcInv ∧ lcpState.ShapeInv ∧ lcpState.initDone = true ∧ RegionOk lcpState (4 * 0x24) 12 4 ∧
    d.reserved = 0 ∧ d.frame ≤ 1023 ∧ d.slot < lcpState.spf ∧ d.buflen ≠ 0 ∧
    RegionOk lcpState d.outAddr d.buflen 1 ∧ 4 * 0x24 + 12 ≤ d.outAddr ∧ 3 < d.buflen ∧
    lcpState.bsrRegularPending = false ∧ lcpState.prevLcgData = 0 := by
  refine ⟨⟨by decide, fun l hl => ?_⟩, by decide +kernel⟩
  have hs : lcpState.spf = 20 := by decide +kernel
  have h : l = lc4 ∨ l = LcEntry.afterReset := by
    have : ∀ l ∈ lcpState.lc, l = lc4 ∨ l = LcEntry.afterReset := by decide +kernel
    exact this l hl
  rcases h with rfl | rfl <;> constructor <;> simp [lc4, LcEntry.afterReset, hs]
theorem test_witness_IntRangeIsUnreachable : busyState.LcInv ∧ busyState.halted = false :=
  ⟨test_witness_StepKeepsBucketsInRange.2, rfl⟩

/-- The rows of BSR formats at their least space: `n` and `S` where the format changes, one LCG with data, two
of them in the order of their priorities, and eight. -/
theorem test_witness_BsrFormatAndSize :
    let gs := fun bytes : List Nat => (List.range 8).filter fun g => decide (0 < bytes.getD g 0)
    (∀ b ∈ [255, 16, 1, 255, 255, 255, 255, 255], b ≤ 255) ∧
    gs [0, 0, 0, 0, 0, 0, 0, 0] = [] ∧ gs [0, 500, 0, 0, 0, 0, 0, 0] = [1] ∧
    gs [0, 500, 1, 0, 0, 0, 0, 0] = [1, 2] ∧ [255, 16, 1].getD 2 255 < [255, 16, 1].getD 1 255 ∧
    (gs [1, 1, 1, 1, 1, 1, 1, 1]).length = 8 ∧
    bsrFormat 1 1 = 0 ∧ bsrFormat 2 1 = 1 ∧ bsrFormat 1 2 = 0 ∧ bsrFormat 2 2 = 2 ∧ bsrFormat 3 2 = 2 ∧
    bsrFormat 4 2 = 4 ∧ bsrFormat 5 2 = 3 ∧ bsrFormat 10 8 = 4 ∧ bsrFormat 11 8 = 3 := by decide

/-- L7: two LCGs and four bytes give a truncated long BSR of the LCG of better priority, LCG 2. -/
theorem test_bsr_truncated :
    bsrBytes 4 [0, 500, 1] [255, 16, 1] = [0x3C, 2, 0x06, BitVec.ofNat 8 (bs8 1)] := by rfl
theorem test_witness_BsrEvalWritesTheBsr :
    let s := base (cells 0xA0 ([0, 0x60, 0, 0, 10, 0, 0, 0, 100, 0, 0, 0, 200, 0, 0, 0]
      ++ List.replicate 24 0 ++ [16, 1, 255, 255, 255, 255, 255, 255]))
    let d := bsrDescOfBytes (readBytes s.mem (4 * 0x28) 48)
    RegionOk s (4 * 0x28) 48 4 ∧
    (∀ g < 8, (1 ≤ d.lcgBestPrio.getD g 255 ∧ d.lcgBestPrio.getD g 255 ≤ 16 ∧ 0 < d.lcgBytes.getD g 0) ∨
      (d.lcgBestPrio.getD g 255 = 255 ∧ d.lcgBytes.getD g 0 = 0)) ∧
    RegionOk s d.outAddr (min d.space 11) 1 ∧ 4 * 0x28 + 48 ≤ d.outAddr := by decide +kernel

/-! ### Witnesses: grants, HARQ and the PUSCH PDU -/

theorem test_witness_TaExpiryResetsStoreAndHarq : (base []).initDone = true ∧
    ∀ k < (base []).spf, ((base []).slotRec k).lock = none := by decide +kernel

/-- B1 to B3: a reserved byte; slot 19 of frame 1023 with K2 = 4 just above `duration_rx_to_tx` = 3 and equal to it; source 4, row
1, frame 1024, slot 20. -/
theorem test_witness_GrantTargetFindsSkipsOrHalts :
    let s := fun (dur : Nat) (bs : List Nat) =>
      ({ base (cells 0x100 bs) with cfg := { c1 with durationRxToTx := dur } } : State)
    let g := fun (bs : List Nat) => grantOfBytes (readBytes (s 3 bs).mem (4 * 0x40) 32)
    let last := [1, 3, 1, 0, 0, 0, 255, 3, 19, 0, 0, 0, 0, 0, 0, 1]
    ((s 3 last).initDone = true ∧ RegionOk (s 3 last) (4 * 0x40) 32 4 ∧
      memRead (s 3 last).mem (4 * 0x40 + 0x13) 1 = 0 ∧ memRead (s 3 last).mem (4 * 0x40 + 0x1E) 2 = 0 ∧
      (g last).source ≤ 3 ∧ (g last).tdraIndex < c1.nTdra ∧ (g last).rxFrame ≤ 1023 ∧
      (g last).rxSlot < (s 3 last).spf ∧ (s 3 last).cfg.durationRxToTx < (c1.tdraRow (g last).tdraIndex).k2 ∧
      (c1.tdraRow (g last).tdraIndex).k2 ≤ (s 4 last).cfg.durationRxToTx) ∧
    memRead (s 3 (p2Grant.set 0x13 1)).mem (4 * 0x40 + 0x13) 1 ≠ 0 ∧ 3 < (g [4]).source ∧
    ((g [3, 0, 0, 0, 0, 0, 0, 0, 0, 1]).source ≤ 3 ∧
      c1.nTdra ≤ (g [3, 0, 0, 0, 0, 0, 0, 0, 0, 1]).tdraIndex) ∧
    1023 < (g [3, 0, 0, 0, 0, 0, 0, 4]).rxFrame ∧ (s 3 []).spf ≤ (g [3, 0, 0, 0, 0, 0, 0, 0, 20]).rxSlot := by
  decide +kernel

/-- The state of program P2 before PUSCH_BUILD, its grant, and what the grant determines. -/
def buildState : State := arg0 0x0500 (locked (cells 0x100 p2Grant) 0 1)
def buildGrant : Grant := grantOfBytes (readBytes buildState.mem (4 * 0x40) 32)
def buildAlloc : Alloc := ⟨31, 20, 0, 14, 0, ⟨2, 6790⟩, ⟨1, 2, 1, false, [2]⟩, 512, 6790⟩

theorem buildAlloc_eq : evalGrant buildState buildGrant = .ok buildAlloc := by rfl
theorem test_witness_PuschBuildFillsTheEntry :
    (buildState.initDone = true ∧ RegionOk buildState (4 * 0x40) 32 4 ∧
      memRead buildState.mem (4 * 0x40 + 0x13) 1 = 0 ∧ memRead buildState.mem (4 * 0x40 + 0x1E) 2 = 0 ∧
      buildGrant.rxFrame ≤ 1023 ∧ buildGrant.rxSlot < buildState.spf ∧ buildGrant.payloadAddr < 2 ^ 26 ∧
      buildState.port.arg0.toNat < 0xFFFF ∧
      bits buildState.port.arg0.toNat 15 8 < buildState.spf ∧
      bits buildState.port.arg0.toNat 7 0 ≤ buildState.build.nPdu ∧
      (buildState.slotRec (bits buildState.port.arg0.toNat 15 8)).lock = some buildState.cur ∧
      bits buildState.port.arg0.toNat 7 0 <
        (buildState.slotRec (bits buildState.port.arg0.toNat 15 8)).numberPdus ∧
      ((buildState.slotRec (bits buildState.port.arg0.toNat 15 8)).entry
        (bits buildState.port.arg0.toNat 7 0)).pduType = 3) ∧
    evalGrant buildState buildGrant = .ok buildAlloc := ⟨by decide +kernel, buildAlloc_eq⟩

/-- The same state with a grant of DCI 0_0, MCS 29 (B10): ERR_TBS_ZERO. -/
def skipState : State := arg0 0x0500 (locked (cells 0x100 ((p2Grant.set 12 29).set 0 0)) 0 1)

/-- Checks 1 to 7 of R661 pass for a grant of DCI 0_0 whose table has no OPEN row. -/
theorem grant_passes {s : State} {g : Grant} {size len : Nat} (h : g.source = 0) (ht : g.tp s.cfg = false)
    (hf : ¬GrantFails s g 2) (hr : (rivDecode g.riv s.cfg.bwpSize).map Prod.snd = some size)
    (hm : (mcsLookup false (g.tableCode s.cfg) g.mcs).qm.val = 2)
    (hs : slivDecode (s.cfg.tdraRow g.tdraIndex).sliv = some (0, len))
    (hd : ∀ l ∈ dmrsSymbols s.cfg g (s.cfg.tdraRow g.tdraIndex).mappingType 0 len false, l < len) :
    ∀ n < 8, ¬GrantFails s g n := by
  intro n hn
  match n, hn with
  | 0, _ => exact id
  | 1, _ => simp [GrantFails, h]
  | 2, _ => exact hf
  | 3, _ => simp [GrantFails, ht]
  | 4, _ =>
    intro hc
    cases hb : rivDecode g.riv s.cfg.bwpSize with
    | none => simp [hb] at hr
    | some rb => simpa [ht] using (hc rb.1 rb.2 hb).1
  | 5, _ => simp [GrantFails, ht, hm]
  | 6, _ =>
    intro hc
    rcases hc 0 len hs with ⟨h1, -⟩ | ⟨l, hl, h2⟩
    · omega
    · have := hd l (by simpa [h] using hl)
      omega
  | 7, _ => simp [GrantFails, h]


/-- B10: the first failing check is the last; and of a grant with source 4 and `rv` 4 it is check 1. -/
theorem test_witness_PuschBuildSkipsABadGrant :
    (skipState.initDone = true ∧ RegionOk skipState (4 * 0x40) 32 4 ∧
      memRead skipState.mem (4 * 0x40 + 0x13) 1 = 0 ∧ memRead skipState.mem (4 * 0x40 + 0x1E) 2 = 0 ∧
      (grantOfBytes (readBytes skipState.mem (4 * 0x40) 32)).rxFrame ≤ 1023 ∧
      (grantOfBytes (readBytes skipState.mem (4 * 0x40) 32)).rxSlot < skipState.spf ∧
      (grantOfBytes (readBytes skipState.mem (4 * 0x40) 32)).payloadAddr < 2 ^ 26 ∧
      skipState.port.arg0.toNat = 0x0500 ∧ 5 < skipState.spf ∧
      (skipState.slotRec 5).lock = some skipState.cur ∧ 0 < (skipState.slotRec 5).numberPdus ∧
      ((skipState.slotRec 5).entry 0).pduType = 3) ∧
    FirstGrantFailure skipState (grantOfBytes (readBytes skipState.mem (4 * 0x40) 32)) 8 ∧
    FirstGrantFailure skipState { buildGrant with source := 4, rv := 4 } 1 := by
  refine ⟨by decide +kernel, ⟨.inr ⟨by decide +kernel, ?_⟩, grant_passes (size := 20) (len := 14) (by decide +kernel)
    (by decide +kernel) ?_ (by decide +kernel) (by decide +kernel) (by decide +kernel) (by decide +kernel)⟩,
    by show 3 < 4; decide, fun m hm => ?_⟩
  · intro rb sl d _ _ _
    have h : (mcsLookup ((grantOfBytes (readBytes skipState.mem (4 * 0x40) 32)).tp skipState.cfg)
      ((grantOfBytes (readBytes skipState.mem (4 * 0x40) 32)).tableCode skipState.cfg)
      (grantOfBytes (readBytes skipState.mem (4 * 0x40) 32)).mcs).rate.val = 0 := by decide +kernel
    rw [h]
    simp [tbsCompute]
  · show ¬(_ ∨ _)
    decide +kernel
  · obtain rfl : m = 0 := by omega
    exact id

/-- B9: HARQ 3 filled, a grant with its NDI and MCS 4; and a process that has none. -/
def retxState : State := { buildState with harq := buildState.harq.set 3 ⟨0, 512, 6790, 2, 0⟩ }
def retxGrant : Grant := { buildGrant with ndi := 0, mcs := 4 }

/-- The same with PTRS enabled and no thresholds (B13). -/
def ptrsState : State := { buildState with cfg := { c1 with ptrsEnabled := 1 } }

theorem test_witness_RetransmissionReusesTheCachedTbs :
    (retxGrant.source ≤ 1 ∧ (retxState.harqEntry retxGrant.harqPid).lastNdi ≠ 255 ∧
      retxGrant.ndi = (retxState.harqEntry retxGrant.harqPid).lastNdi) ∧
    (∃ x, evalGrant retxState retxGrant = .ok x) ∧
    (let s : State := { retxState with harq := List.replicate 16 ⟨0, 0, 0, 0, 0⟩ }
     let g : Grant := { retxGrant with source := 0 }
     (s.harqEntry g.harqPid).lastNdi ≠ 255 ∧ g.ndi = (s.harqEntry g.harqPid).lastNdi ∧
     (s.harqEntry g.harqPid).tbsBytes = 0 ∧ (∀ n < 8, ¬GrantFails s g n) ∧
     FirstGrantFailure s { g with rv := 4 } 2) := by
  refine ⟨by decide +kernel, ⟨{ buildAlloc with row := ⟨2, 3080⟩ }, by rfl⟩, by decide +kernel, by decide +kernel,
    by decide +kernel, grant_passes (size := 20) (len := 14) rfl (by decide +kernel) ?_ (by decide +kernel)
    (by decide +kernel) (by decide +kernel) (by decide +kernel), .inr (.inr (.inl (by decide))), fun m hm => ?_⟩
  · show ¬(_ ∨ _)
    decide +kernel
  · match m, hm with
    | 0, _ => exact id
    | 1, _ => exact (by decide : ¬3 < 0)
theorem test_witness_BuiltPduHoldsItsFields :
    evalGrant buildState buildGrant = .ok buildAlloc ∧
    (buildGrant.source = 1 ∧ buildGrant.ndi ≠ (buildState.harqEntry buildGrant.harqPid).lastNdi) ∧
    evalGrant retxState retxGrant = .ok { buildAlloc with row := ⟨2, 3080⟩ } ∧
    (¬(retxState.harqEntry retxGrant.harqPid).lastNdi = 255 ∧
      retxGrant.ndi = (retxState.harqEntry retxGrant.harqPid).lastNdi) ∧
    (∃ x, evalGrant ptrsState { buildGrant with source := 0 } = .ok x) ∧ ptrsState.cfg.ptrsEnabled = 1 :=
  ⟨buildAlloc_eq, by decide +kernel, by rfl, by decide +kernel, ⟨buildAlloc, by rfl⟩, rfl⟩
theorem test_witness_BuiltPduPassesTheMapperChecks :
    buildState.cfg.legal = true ∧ buildState.cfg.dmrsAddPos = 0 ∧ buildState.cfg.msg3DmrsAddPos = 0 ∧
    buildGrant.source = 1 ∧ buildState.cfg.dmrsType = 1 ∧ buildState.cfg.dmrsMaxLength = 1 ∧
    evalGrant buildState buildGrant = .ok buildAlloc :=
  ⟨by decide +kernel, by decide +kernel, by decide +kernel, by decide +kernel, by decide +kernel,
    by decide +kernel, buildAlloc_eq⟩
theorem test_witness_RivAndSlivDecodeTheirEncodings : 1 ≤ 51 ∧ 51 * (51 + 1) / 2 = 1326 := by decide
theorem test_witness_ReadCommandsWriteTheirRecords :
    let s := arg0 0x3FFE8 (base [])
    s.initDone = true ∧ 15 ≤ 15 ∧ RegionOk s s.port.arg0.toNat 12 4 ∧ 32 ≤ 32 ∧
    RegionOk s s.port.arg0.toNat 24 4 := by decide +kernel

/-! ### Witnesses: the mapper and the rest of the pipeline -/

theorem mapReady_p5 (off : Nat) (h : off = 0 ∨ off = 718) :
    MapReady { base p5Mem with cfg := { c1 with firstCarrierOffset := off } } 0x880 := by
  rcases h with rfl | rfl
  all_goals
    constructor
    all_goals decide +kernel
theorem test_witness_MapPuschWritesTheAllocation :
    MapReady { base p5Mem with cfg := { c1 with firstCarrierOffset := 718 } } 0x880 ∧
    (mapBundleAt { base p5Mem with cfg := { c1 with firstCarrierOffset := 718 } } 0x880).InAlloc 0 1 11 :=
  ⟨mapReady_p5 718 (.inr rfl), by constructor <;> decide +kernel⟩
theorem test_witness_DataResNumberNData : (pduOfBytes (p5Pdu.map (BitVec.ofNat 8))).legal c1 = true := by
  decide +kernel

/-- P5 across the DC point, and with no carrier offset (M3): the same PDU and streams. -/
theorem test_witness_DcStraddlingIsTransparent :
    let s : State := { base p5Mem with cfg := { c1 with firstCarrierOffset := 718 } }
    let s' : State := { base p5Mem with cfg := { c1 with firstCarrierOffset := 0 } }
    MapReady s 0x880 ∧ MapReady s' 0x880 ∧ s'.build = s.build ∧
    s'.cfg = { s.cfg with firstCarrierOffset := s'.cfg.firstCarrierOffset } ∧
    mapPduAt s' 0x880 = { mapPduAt s 0x880 with
      bwpStart := (mapPduAt s' 0x880).bwpStart, rbStart := (mapPduAt s' 0x880).rbStart } ∧
    (∀ v i, v < (mapPduAt s 0x880).nLayers → i < (mapDescAt s 0x880).dataLen →
      readC16 s'.mem ((mapDescAt s' 0x880).dataAddr.getD v 0 + 4 * i) =
        readC16 s.mem ((mapDescAt s 0x880).dataAddr.getD v 0 + 4 * i)) ∧
    (∀ i, i < (mapBundleAt s 0x880).dm.length * (mapBundleAt s 0x880).j →
      readC16 s'.mem ((mapDescAt s' 0x880).dmrsAddr + 4 * i) =
        readC16 s.mem ((mapDescAt s 0x880).dmrsAddr + 4 * i)) ∧
    (∀ i, i < (mapBundleAt s 0x880).pt.length * (mapBundleAt s 0x880).nPt →
      readC16 s'.mem ((mapDescAt s' 0x880).ptrsAddr + 4 * i) =
        readC16 s.mem ((mapDescAt s 0x880).ptrsAddr + 4 * i)) ∧
    (∃ t, exec (.mapPusch 0x880) s = .next t) ∧ (∃ t, exec (.mapPusch 0x880) s' = .next t) ∧
    (mapBundleAt s 0x880).InAlloc 0 0 0 :=
  ⟨mapReady_p5 718 (.inr rfl), mapReady_p5 0 (.inl rfl), rfl, rfl, rfl, fun _ _ _ _ => rfl,
    fun _ _ => rfl, fun _ _ => rfl, ⟨_, rfl⟩, ⟨_, rfl⟩,
    by constructor <;> decide +kernel⟩

/-- Six symbols on two layers. -/
theorem test_witness_LayerMapDealsOutTheSymbols :
    let s := base (cells 0x2180 [0, 0x25, 0, 0, 6, 0, 0, 0, 2, 0, 0, 0, 0, 0x30, 0, 0, 0, 0x31, 0, 0])
    let d := layerMapDescOfBytes (readBytes s.mem (4 * 0x860) 28)
    let out := fun v => d.outAddr.getD v 0
    let n := d.nIn / d.nLayers
    RegionOk s (4 * 0x860) 28 4 ∧ d.reserved = 0 ∧ 1 ≤ d.nLayers ∧ d.nLayers ≤ 4 ∧ d.nIn % d.nLayers = 0 ∧
    RegionOk s d.inAddr (4 * d.nIn) 4 ∧ (∀ v < d.nLayers, RegionOk s (out v) (4 * n) 4) ∧
    (∀ v < d.nLayers, overlaps (out v, 4 * n) (d.inAddr, 4 * d.nIn) = false ∧
      overlaps (out v, 4 * n) (4 * 0x860, 28) = false ∧
      ∀ u < d.nLayers, u ≠ v → overlaps (out v, 4 * n) (out u, 4 * n) = false) := by decide +kernel

/-- The corner case of R810: with no symbols an aligned 26-bit address above DMEM passes, and RES0 is 0; with bits
31:26 set it raises DMEM_RANGE (R201). -/
theorem test_layer_map_no_symbols :
    let s := base (cells 0x2180 [0, 0, 0, 3, 0, 0, 0, 0, 2, 0, 0, 0, 0xFC, 0xFF, 0xFF, 3, 4, 0, 4, 0])
    let d := layerMapDescOfBytes (readBytes s.mem (4 * 0x860) 28)
    d.nIn = 0 ∧ (d.inAddr < 2 ^ 26 ∧ d.inAddr % 4 = 0) ∧
    (∀ v < d.nLayers, d.outAddr.getD v 0 < 2 ^ 26 ∧ d.outAddr.getD v 0 % 4 = 0) ∧
    s.build.dmemSize < d.outAddr.getD 0 0 ∧
    (run (.layerMap 0x860) s).halted = false ∧ (run (.layerMap 0x860) s).port.res0 = 0 ∧
    (run (.layerMap 0x860) (base (cells 0x2180 [0, 0, 0, 4, 0, 0, 0, 0, 1]))).faultCode = 0x03 := by decide +kernel
theorem test_witness_TpDftTransformsEachBlock :
    let s := tpState
    let t := tpDescOfBytes (readBytes s.mem (4 * 0x898) 16)
    let p := readPdu s t.pduAddr
    let M := 12 * p.rbSize
    RegionOk s (4 * 0x898) 16 4 ∧ RegionOk s t.pduAddr 64 4 ∧ p.legal s.cfg = true ∧ p.transformPrecoding = 1 ∧
    smooth235 M = true ∧ t.n = M * (p.nrOfSymbols - popcount p.ulDmrsSymbPos) ∧
    RegionOk s t.inAddr (4 * t.n) 4 ∧ RegionOk s t.outAddr (4 * t.n) 4 ∧
    overlaps (t.outAddr, 4 * t.n) (t.inAddr, 4 * t.n) = false ∧
    overlaps (t.outAddr, 4 * t.n) (4 * 0x898, 16) = false ∧
    overlaps (t.outAddr, 4 * t.n) (t.pduAddr, 64) = false := by decide +kernel

/-- T3: one layer on one antenna with TPMI 0, and one layer on two antennas with TPMI 2. -/
theorem test_witness_PrecodeFillsTheAntennaGrid :
    let ok := fun (s : State) =>
      let c := precodeDescOfBytes (readBytes s.mem (4 * 0x890) 12)
      let p := readPdu s c.pduAddr
      s.cfgValid = true ∧ s.cfg.legal = true ∧ RegionOk s (4 * 0x890) 12 4 ∧ RegionOk s c.pduAddr 64 4 ∧
      p.legal s.cfg = true ∧ p.nAnt = s.cfg.nAnt ∧ p.nLayers ≤ p.nAnt ∧
      (p.tpmi ≠ 0 → (wLookup p.nAnt p.nLayers p.tpmi).isSome = true) ∧
      RegionOk s c.layerGridAddr (4 * (p.nLayers * 14 * s.cfg.fftSize)) 4 ∧
      RegionOk s c.antGridAddr (4 * (p.nAnt * 14 * s.cfg.fftSize)) 4 ∧
      clearOf (c.antGridAddr, 4 * (p.nAnt * 14 * s.cfg.fftSize))
        [(c.layerGridAddr, 4 * (p.nLayers * 14 * s.cfg.fftSize)), (4 * 0x890, 12), (c.pduAddr, 64)] = true
    ok (base p5Mem) ∧
    ok { base (cells 0x2100 ((p5Pdu.set 0x2C 2).set 0x2D 2) ++ cells 0x2240 [0, 0x21, 0, 0, 0, 0, 1, 0, 0, 0, 2, 0])
      with cfg := { c1 with nAnt := 2, maxRank := 2 } } := by decide +kernel
theorem test_witness_LlrCommandsWriteTheRecursion :
    let s := base llrMem
    let d := llrDescOfBytes (readBytes s.mem (4 * 0x1800) 24)
    RegionOk s (4 * 0x1800) 24 4 ∧ d.nbRe ≤ 65535 ∧ RegionOk s d.rxAddr (4 * d.nbRe) 4 ∧
    (∀ k < 3, RegionOk s (d.magAddr.getD k 0) (4 * d.nbRe) 4) ∧ RegionOk s d.outAddr (2 * 8 * d.nbRe) 2 ∧
    overlaps (d.outAddr, 2 * 8 * d.nbRe) (4 * 0x1800, 24) = false ∧
    overlaps (d.outAddr, 2 * 8 * d.nbRe) (d.rxAddr, 4 * d.nbRe) = false ∧
    (∀ k < 3, overlaps (d.outAddr, 2 * 8 * d.nbRe) (d.magAddr.getD k 0, 4 * d.nbRe) = false) := by
  decide +kernel

end Sys2Proof.Tests
end

section
/-! The effect of every command on the registers and tables, said once: what each body can do when it ends
normally, and from it what one step of the machine can do. The invariants of the state are derived from these
two lemmas (`exec_cases`, `step_cases`). -/

namespace Sys2Proof.Machine

/-! ### How a body ends normally -/

/-- A body that ends normally ends in a state with the property `P`. -/
def EndsIn (P : State → Prop) (x : Except Stop State) : Prop := ∀ t, x = .ok t → P t

section
variable {P : State → Prop}

theorem EndsIn.pure {t : State} (h : P t) : EndsIn P (pure t) := by
  intro u hu
  obtain rfl := pure_ok_iff.mp hu
  exact h

theorem EndsIn.error (e : Stop) : EndsIn P (.error e) := fun _ h => by cases h

theorem EndsIn.bind {α : Type} {x : Except Stop α} {f : α → Except Stop State} (h : ∀ a, EndsIn P (f a)) :
    EndsIn P (x >>= f) := by
  intro t ht
  obtain ⟨a, -, ha⟩ := bind_ok_iff.mp ht
  exact h a t ha

/-- The rest of a body may use the check before it. -/
theorem EndsIn.require {p : Prop} [Decidable p] {c : FaultCode} {f : Unit → Except Stop State}
    (h : p → EndsIn P (f ())) : EndsIn P (require p c >>= f) := by
  intro t ht
  obtain ⟨_, hp, ha⟩ := bind_ok_iff.mp ht
  exact h (require_ok_iff.mp hp) t ha

/-- The rest of a body may use the region check before it. -/
theorem EndsIn.checkRegion {s : State} {a n al : Nat} {f : Unit → Except Stop State}
    (h : RegionOk s a n al → EndsIn P (f ())) : EndsIn P (checkRegion s a n al >>= f) := by
  intro t ht
  obtain ⟨_, hp, ha⟩ := bind_ok_iff.mp ht
  exact h (checkRegion_ok_iff.mp hp) t ha

/-- The rest of a body runs with the slot and the entry of its handle. -/
theorem EndsIn.checkHandle {s : State} {w : Nat} {f : Nat × Nat → Except Stop State}
    (h : EndsIn P (f (bits w 15 8, bits w 7 0))) : EndsIn P (checkHandle s w >>= f) := by
  intro t ht
  obtain ⟨x, hx, ha⟩ := bind_ok_iff.mp ht
  obtain ⟨-, -, -, rfl⟩ := checkHandle_ok_iff.mp hx
  exact h t ha

/-- The rest of a body runs with the lock taken, which was FREE. -/
theorem EndsIn.acquire {s : State} {k : Nat} {f : State → Except Stop State}
    (h : EndsIn P (f (s.modSlot k fun r => { r with lock := some s.cur }))) :
    EndsIn P (s.acquire k >>= f) := by
  intro t ht
  obtain ⟨u, hu, ha⟩ := bind_ok_iff.mp ht
  rcases s.acquire_cases k with ⟨-, hk⟩ | ⟨-, hk⟩ | ⟨_, -, -, hk⟩
  · rw [hk] at hu
    cases hu
    exact h t ha
  · rw [hk] at hu
    cases hu
  · rw [hk] at hu
    cases hu

theorem EndsIn.ite {p : Prop} [Decidable p] {x y : Except Stop State} (hx : p → EndsIn P x)
    (hy : ¬p → EndsIn P y) : EndsIn P (if p then x else y) := by
  split
  · exact hx ‹_›
  · exact hy ‹_›

theorem EndsIn.mono {Q : State → Prop} {x : Except Stop State} (h : EndsIn P x) (hPQ : ∀ t, P t → Q t) :
    EndsIn Q x := fun t ht => hPQ t (h t ht)

end

/-! ### What a normal end leaves unchanged -/

/-- The second state has the flags, CFG, the fault registers, the store, the HARQ table and the issuing port of the
first: of what the invariants speak of, only the logical channels may differ. -/
structure Frame (s t : State) : Prop where
  ports : t.ports.length = s.ports.length
  cfg : t.cfg = s.cfg
  cfgValid : t.cfgValid = s.cfgValid
  initDone : t.initDone = s.initDone
  halted : t.halted = s.halted
  faultCode : t.faultCode = s.faultCode
  faultPort : t.faultPort = s.faultPort
  faultCmd : t.faultCmd = s.faultCmd
  store : t.store = s.store
  harq : t.harq = s.harq
  build : t.build = s.build
  cur : t.cur = s.cur
  inputs : t.inputs = s.inputs

/-- The logical channels are the same too: only port registers, DMEM, the log, the BSR state and the oracle may
differ. -/
structure Quiet (s t : State) : Prop extends Frame s t where
  lc : t.lc = s.lc

theorem Frame.spf {s t : State} (h : Frame s t) : t.spf = s.spf := by
  rw [State.spf, State.spf, h.cfg]

theorem Frame.trans {s t u : State} (h : Frame s t) (g : Frame t u) : Frame s u :=
  ⟨g.ports.trans h.ports, g.cfg.trans h.cfg, g.cfgValid.trans h.cfgValid, g.initDone.trans h.initDone,
    g.halted.trans h.halted, g.faultCode.trans h.faultCode, g.faultPort.trans h.faultPort,
    g.faultCmd.trans h.faultCmd, g.store.trans h.store, g.harq.trans h.harq, g.build.trans h.build,
    g.cur.trans h.cur, g.inputs.trans h.inputs⟩

theorem Quiet.trans {s t u : State} (h : Quiet s t) (g : Quiet t u) : Quiet s u :=
  ⟨h.toFrame.trans g.toFrame, g.lc.trans h.lc⟩

theorem Quiet.refl (s : State) : Quiet s s := by constructor <;> constructor <;> rfl

section
variable {s t : State}

theorem Quiet.modPort (h : Quiet s t) (f : Port → Port) : Quiet s (t.modPort f) :=
  h.trans (by constructor <;> constructor <;> simp)

theorem Quiet.setRes0 (h : Quiet s t) (v : Word) : Quiet s (t.setRes0 v) := h.modPort _

theorem Quiet.setRes1 (h : Quiet s t) (v : Word) : Quiet s (t.setRes1 v) := h.modPort _

theorem Quiet.ret (h : Quiet s t) (c : Int) : Quiet s (t.ret c) := h.modPort _

theorem Quiet.log (h : Quiet s t) (c : Int) (f k : Nat) : Quiet s (t.log c f k) :=
  h.trans (by constructor <;> constructor <;> rfl)

theorem Quiet.withMem (h : Quiet s t) (m : List Host.Cell) : Quiet s { t with mem := m } :=
  h.trans (by constructor <;> constructor <;> rfl)

theorem Quiet.skipGrant (h : Quiet s t) (c : Int) (f k : Nat) : Quiet s (t.skipGrant c f k) :=
  (h.log c f k).ret c

end

/-! ### The commands that only answer: DMEM, results, status and log (spec/41_lcp_bsr.md to spec/45_llr.md) -/

section
variable (s : State)

theorem ulPduReadBody_quiet (handle : Nat) : EndsIn (Quiet s) (ulPduReadBody handle s) :=
  .require fun _ => .checkHandle <| .require fun _ => .bind fun _ =>
    .pure ((((Quiet.refl s).withMem _).setRes0 _).ret _)

theorem grantTargetBody_quiet (daddr : Nat) : EndsIn (Quiet s) (grantTargetBody daddr s) :=
  .require fun _ => .bind fun _ => .require fun _ =>
    .ite (fun _ => .pure ((Quiet.refl s).skipGrant ..)) fun _ =>
    .ite (fun _ => .pure ((Quiet.refl s).skipGrant ..)) fun _ =>
    .require fun _ => .pure ((((Quiet.refl s).setRes0 _).setRes1 _).ret _)

theorem harqReadBody_quiet (pid : Nat) : EndsIn (Quiet s) (harqReadBody pid s) :=
  .require fun _ => .require fun _ => .bind fun _ => .pure (((Quiet.refl s).withMem _).ret _)

theorem lcReadBody_quiet (lcid : Nat) : EndsIn (Quiet s) (lcReadBody lcid s) :=
  .require fun _ => .require fun _ => .bind fun _ => .pure (((Quiet.refl s).withMem _).ret _)

theorem bsrEvalBody_quiet (daddr : Nat) : EndsIn (Quiet s) (bsrEvalBody daddr s) :=
  .bind fun _ => .require fun _ => .bind fun _ => .require fun _ =>
    .pure (((((Quiet.refl s).withMem _).setRes0 _).setRes1 _).ret _)

theorem layerMapBody_quiet (daddr : Nat) : EndsIn (Quiet s) (layerMapBody daddr s) :=
  .bind fun _ => .require fun _ => .require fun _ => .bind fun _ => .require fun _ =>
    .pure ((((Quiet.refl s).withMem _).setRes0 _).ret _)

theorem tpDftBody_quiet (daddr : Nat) : EndsIn (Quiet s) (tpDftBody daddr s) :=
  .bind fun _ => .bind fun _ => .require fun _ => .require fun _ => .require fun _ => .bind fun _ =>
    .bind fun _ => .require fun _ => .pure (((((Quiet.refl s).withMem _).setRes0 _).setRes1 _).ret _)

theorem mapPuschBody_quiet (daddr : Nat) : EndsIn (Quiet s) (mapPuschBody daddr s) :=
  .require fun _ => .bind fun _ => .bind fun _ => .require fun _ => .bind fun _ => .bind fun _ => .bind fun _ =>
    .bind fun _ => .require fun _ => .require fun _ =>
      .pure (((((Quiet.refl s).withMem _).setRes0 _).setRes1 _).ret _)

theorem precodeBody_quiet (daddr : Nat) : EndsIn (Quiet s) (precodeBody daddr s) :=
  .require fun _ => .bind fun _ => .bind fun _ => .require fun _ => .require fun _ => .require fun _ =>
    .bind fun _ => .bind fun _ => .require fun _ =>
      .pure (((((Quiet.refl s).withMem _).setRes0 _).setRes1 _).ret _)

theorem llrBody_quiet (nm daddr : Nat) : EndsIn (Quiet s) (llrBody nm daddr s) :=
  .bind fun _ => .require fun _ => .bind fun _ => .bind fun _ => .bind fun _ => .require fun _ =>
    .pure ((((Quiet.refl s).withMem _).setRes0 _).ret _)

end

end Sys2Proof.Machine
end
section
/-! ### Sound slot records (spec/10_state.md R110, R111, spec/40_config_store.md R405, R450) -/

namespace Sys2Proof.Machine

section
variable {b : Build} {k : Nat} {r : SlotRec}

theorem SlotRec.Ok.withWaiters (h : r.Ok b k) (w : List Nat) : ({ r with waiters := w } : SlotRec).Ok b k :=
  ⟨h.count, h.entries, h.tag, h.holder, h.types, h.payloads⟩

theorem SlotRec.Ok.locked (h : r.Ok b k) {p : Nat} (hp : p < b.nPorts) :
    ({ r with lock := some p } : SlotRec).Ok b k :=
  ⟨h.count, h.entries, h.tag, fun q hq => by cases hq; exact hp, h.types, h.payloads⟩

theorem SlotRec.Ok.unlocked (h : r.Ok b k) : ({ r with lock := none } : SlotRec).Ok b k :=
  ⟨h.count, h.entries, h.tag, fun q hq => (by cases hq), h.types, h.payloads⟩

theorem SlotRec.Ok.tagged (h : r.Ok b k) (frame : Nat) :
    ({ r with tagFrame := frame, tagSlot := k } : SlotRec).Ok b k :=
  ⟨h.count, h.entries, rfl, h.holder, h.types, h.payloads⟩

/-- Dropping entries from the end keeps a record sound. -/
theorem SlotRec.Ok.shrunk (h : r.Ok b k) {n : Nat} (hn : n ≤ r.numberPdus) :
    ({ r with numberPdus := n } : SlotRec).Ok b k :=
  ⟨hn.trans h.count, h.entries, h.tag, h.holder, fun e he => h.types e (lt_of_lt_of_le he hn), h.payloads⟩

/-- A change of one entry keeps a record sound when the payload stays 64 bytes and the type of a counted entry
stays what it was. -/
theorem SlotRec.Ok.entryChanged (h : r.Ok b k) {e : Nat} {f : Entry → Entry}
    (hp : ∀ x : Entry, x.payload.length = 64 → (f x).payload.length = 64)
    (ht : e < r.numberPdus → ∀ x, (f x).pduType = x.pduType) : (r.modEntry e f).Ok b k where
  count := h.count
  entries := by simpa [SlotRec.modEntry] using h.entries
  tag := h.tag
  holder := h.holder
  types i hi := by
    have hi' : i < r.numberPdus := hi
    rw [SlotRec.modEntry_entry]
    split
    · rename_i hie
      rw [ht (hie.1 ▸ hi'), ← hie.1]
      exact h.types i hi'
    · exact h.types i hi'
  payloads x hx := by
    obtain ⟨i, hi, rfl⟩ := List.mem_iff_getElem.mp hx
    simp only [SlotRec.modEntry, List.length_modify] at hi
    simp only [SlotRec.modEntry, List.getElem_modify]
    split
    · exact hp _ (h.payloads _ (List.getElem_mem hi))
    · exact h.payloads _ (List.getElem_mem hi)

/-- The record UL_LOCK_GET leaves: one more entry counted, of the type asked for (R401). -/
theorem SlotRec.Ok.reserved (h : r.Ok b k) {ptype : Nat} (hn : r.numberPdus < b.nPdu)
    (ht : 1 ≤ ptype ∧ ptype ≤ 4) :
    ({ r.modEntry r.numberPdus fun e => { e with pduType := ptype } with
      numberPdus := r.numberPdus + 1 } : SlotRec).Ok b k := by
  have hc := h.entryChanged (e := r.numberPdus) (f := fun e => { e with pduType := ptype })
    (fun _ hx => hx) fun hlt => absurd hlt (lt_irrefl _)
  refine ⟨hn, hc.entries, hc.tag, hc.holder, fun e he => ?_, hc.payloads⟩
  rcases Nat.lt_succ_iff_lt_or_eq.mp he with he | rfl
  · exact hc.types e he
  · have hlen : r.numberPdus < r.entries.length := by rw [h.entries]; omega
    have hentry : (r.modEntry r.numberPdus fun e => { e with pduType := ptype }).entry r.numberPdus =
        { r.entry r.numberPdus with pduType := ptype } := by
      rw [SlotRec.modEntry_entry, if_pos ⟨rfl, hlen⟩]
    change 1 ≤ ((r.modEntry _ _).entry _).pduType ∧ ((r.modEntry _ _).entry _).pduType ≤ 4
    rw [hentry]
    exact ht

theorem SlotRec.fresh_ok (b : Build) (k : Nat) : (SlotRec.fresh b.nPdu k).Ok b k where
  count := Nat.zero_le _
  entries := by simp [SlotRec.fresh]
  tag := rfl
  holder p hp := by cases hp
  types e he := absurd he (Nat.not_lt_zero e)
  payloads x hx := by
    rw [List.eq_of_mem_replicate hx]
    rfl

end

/-- A change of the store keeps the number of its records and, while the issuing port exists, every sound record
sound. -/
structure StoreKept (b : Build) (cur : Nat) (st st' : List SlotRec) : Prop where
  length : st'.length = st.length
  sound : cur < b.nPorts → ∀ k, (st.getD k default).Ok b k → (st'.getD k default).Ok b k

section
variable {b : Build} {cur : Nat} {st st' st'' : List SlotRec}

theorem StoreKept.refl (b : Build) (cur : Nat) (st : List SlotRec) : StoreKept b cur st st :=
  ⟨rfl, fun _ _ h => h⟩

theorem StoreKept.trans (h : StoreKept b cur st st') (g : StoreKept b cur st' st'') : StoreKept b cur st st'' :=
  ⟨g.length.trans h.length, fun hc k hk => g.sound hc k (h.sound hc k hk)⟩

theorem StoreKept.modify {k : Nat} {f : SlotRec → SlotRec}
    (hf : cur < b.nPorts → (st.getD k default).Ok b k → (f (st.getD k default)).Ok b k) :
    StoreKept b cur st (st.modify k f) where
  length := List.length_modify ..
  sound hc i hi := by
    rw [getD_modify]
    split
    · rename_i hik
      obtain ⟨rfl, -⟩ := hik
      exact hf hc hi
    · exact hi

theorem StoreKept.map {f : SlotRec → SlotRec} (hf : ∀ k r, r.Ok b k → (f r).Ok b k) :
    StoreKept b cur st (st.map f) where
  length := List.length_map ..
  sound _ i hi := by
    rw [getD_map]
    split
    · exact hf i _ hi
    · rename_i hlt
      rwa [List.getD_eq_default _ _ (not_lt.mp hlt)] at hi

end

theorem State.unwait_storeKept (s : State) : StoreKept s.build s.cur s.store s.unwait.store :=
  .map fun _ _ h => h.withWaiters _

theorem State.hold_storeKept (s : State) (l : List Nat) : StoreKept s.build s.cur s.store (s.hold l).store := by
  obtain ⟨-, hlen, hrec⟩ := s.hold_eq l
  refine ⟨hlen, fun _ k hk => ?_⟩
  have hk' : (s.slotRec k).Ok s.build k := hk
  rw [← hrec k] at hk'
  exact hk'.withWaiters ((s.hold l).slotRec k).waiters

/-! ### The HARQ table (spec/10_state.md R113) -/

/-- A change of the HARQ table keeps its size and every process at legal values. -/
structure HarqKept (l l' : List HarqEntry) : Prop where
  length : l.length = 16 → l'.length = 16
  sound : (∀ h ∈ l, h.Ok) → ∀ h ∈ l', h.Ok

theorem HarqKept.refl (l : List HarqEntry) : HarqKept l l := ⟨id, id⟩

theorem HarqEntry.afterReset_ok (b : Build) : (HarqEntry.afterReset b).Ok where
  ndi := by
    simp only [HarqEntry.afterReset, Build.lastNdiAfterReset, ndiNone]
    cases b.ndiAfterReset
    · exact .inl rfl
    · exact .inr (.inr rfl)
  rate := Nat.zero_le _
  order := .inl rfl
  round := Nat.zero_le _

/-- A member of a list changed at one place is an old member or the changed value of the one at that place. -/
theorem mem_modify {α : Type} {l : List α} {k : Nat} {f : α → α} {x : α} (h : x ∈ l.modify k f) :
    x ∈ l ∨ ∃ hk : k < l.length, x = f l[k] := by
  obtain ⟨i, hi, rfl⟩ := List.mem_iff_getElem.mp h
  rw [List.length_modify] at hi
  rw [List.getElem_modify]
  split
  · rename_i hki
    subst hki
    exact .inr ⟨hi, rfl⟩
  · exact .inl (List.getElem_mem hi)

theorem HarqKept.modify {l : List HarqEntry} {k : Nat} {f : HarqEntry → HarqEntry}
    (hf : ∀ h : HarqEntry, h.Ok → (f h).Ok) : HarqKept l (l.modify k f) where
  length h := (List.length_modify ..).trans h
  sound h x hx := by
    rcases mem_modify hx with hx | ⟨hk, rfl⟩
    · exact h x hx
    · exact hf _ (h _ (List.getElem_mem hk))

/-! ### What a successful grant has been checked for (spec/42_pusch_builder.md R661, R662) -/

theorem grantCheck_ok_iff {p : Prop} [Decidable p] {c : Int} {u : Unit} : grantCheck p c = .ok u ↔ p := by
  by_cases h : p <;> simp [grantCheck, h]

/-- The checks 2 and 5 of R661 hold of a grant that `evalGrant` accepts. -/
theorem evalGrant_ok {s : State} {g : Grant} {x : Alloc} (h : evalGrant s g = .ok x) :
    g.fieldsLegal s.cfg = true ∧
      (x.row.qm.val = 2 ∨ x.row.qm.val = 4 ∨ x.row.qm.val = 6 ∨ x.row.qm.val = 8) := by
  simp only [evalGrant, bind_ok_iff, grantCheck_ok_iff, pure_ok_iff] at h
  obtain ⟨_, -, _, hfields, _, -, rb, -, _, -, _, hqm, sl, -, d, -, _, -, _, -, rfl⟩ := h
  exact ⟨hfields, hqm⟩

theorem HarqEntry.Ok.updated {h : HarqEntry} (hh : h.Ok) {s : State} {g : Grant} {x : Alloc}
    (hx : evalGrant s g = .ok x) : (h.update g x).Ok := by
  obtain ⟨hfields, hqm⟩ := evalGrant_ok hx
  have hndi : g.ndi ≤ 1 := by
    simp only [Grant.fieldsLegal, decide_eq_true_eq] at hfields
    exact hfields.2.1
  unfold HarqEntry.update
  split
  · exact ⟨by change g.ndi = 0 ∨ g.ndi = 1 ∨ g.ndi = 255; omega, Nat.le_of_lt_succ x.row.rate.isLt, .inr hqm,
      Nat.zero_le _⟩
  · exact ⟨hh.ndi, hh.rate, hh.order, Nat.min_le_right ..⟩

theorem pduBytes_length (p : Pdu) : (pduBytes p).length = 64 := by
  unfold pduBytes
  simp only [List.length_append, leBytes_length]

/-! ### The normal end of every command -/

/-- What a command that ends normally can do to the registers and tables: only answer; load a legal CFG; build the
store; change the store and the HARQ table, keeping them sound; or change the logical channels, keeping them sound.
Nothing else of what the invariants speak of changes. -/
inductive Effect (s t : State) : Prop
  | quiet (h : Quiet s t)
  | config (legal : t.cfg.legal = true) (mu : s.initDone = true → t.cfg.mu = s.cfg.mu)
      (frame : Quiet { s with cfg := t.cfg, cfgValid := true } t)
  | init (valid : s.cfgValid = true) (first : s.initDone = false)
      (frame : Quiet { s with store := freshStore s.spf s.build.nPdu, initDone := true } t)
  | tables (store : StoreKept s.build s.cur s.store t.store) (harq : HarqKept s.harq t.harq)
      (frame : Quiet { s with store := t.store, harq := t.harq } t)
  | channels (done : s.initDone = true) (length : t.lc.length = s.lc.length)
      (sound : (∀ l ∈ s.lc, l.Ok s.spf) → ∀ l ∈ t.lc, l.Ok s.spf) (frame : Frame s t)

/-- A command that changes the store and neither the HARQ table nor the logical channels. -/
theorem Effect.store {s t : State} (h : StoreKept s.build s.cur s.store t.store)
    (g : Quiet { s with store := t.store } t) : Effect s t :=
  .tables h (g.harq ▸ HarqKept.refl _) (by rw [g.harq]; exact g)

section
variable (s : State)

theorem cfgWriteBody_effect (daddr : Nat) : EndsIn (Effect s) (cfgWriteBody daddr s) :=
  .bind fun _ => .require fun _ => .require fun hl => .require fun hmu => .pure (.config hl hmu ((Quiet.refl _).ret _))

theorem initBody_effect : EndsIn (Effect s) (initBody s) :=
  .require fun hv => .require fun hi => .pure (.init hv (by simpa using hi) ((Quiet.refl _).ret _))

theorem taExpiryBody_effect : EndsIn (Effect s) (taExpiryBody s.unwait) :=
  .require fun _ => .require fun _ => .ite (fun _ => .error _) fun _ => .pure <|
    .tables (s.unwait_storeKept.trans (.map fun _ _ h => h.shrunk (Nat.zero_le _)))
      ⟨fun _ => List.length_replicate, fun _ _ hh => (List.eq_of_mem_replicate hh) ▸ HarqEntry.afterReset_ok _⟩
      (((Quiet.refl _).log _ _ _).ret _)

theorem ulReleaseBody_effect (clr handle : Nat) : EndsIn (Effect s) (ulReleaseBody clr handle s) := by
  refine .require fun _ => .checkHandle <| .pure <| .store ?_ ?_
  · have hfree : ∀ (st : List SlotRec) (k : Nat),
        StoreKept s.build s.cur st (st.modify k fun r => { r with lock := none }) :=
      fun _ _ => .modify fun _ h => h.unlocked
    by_cases hclr : clr = 1
    · simp only [if_pos hclr]
      exact .trans (.modify fun _ h => h.shrunk (Nat.zero_le _)) (hfree _ _)
    · simp only [if_neg hclr]
      exact hfree _ _
  · by_cases hclr : clr = 1
    · simp only [if_pos hclr]
      exact (Quiet.refl _).ret _
    · simp only [if_neg hclr]
      exact (Quiet.refl _).ret _

theorem ulRemoveLastBody_effect (handle : Nat) : EndsIn (Effect s) (ulRemoveLastBody handle s) :=
  .require fun _ => .checkHandle <| .require fun _ => .pure <|
    .store (.modify fun _ h => h.shrunk (Nat.sub_le ..)) ((Quiet.refl _).ret _)

/-- Taking a FREE lock keeps the store sound while the issuing port exists. -/
theorem State.lock_storeKept (k : Nat) : StoreKept s.build s.cur s.store
    (s.modSlot k fun r => { r with lock := some s.cur }).store :=
  .modify fun hc h => h.locked hc

theorem ulIterGetBody_effect (slot : Nat) : EndsIn (Effect s) (ulIterGetBody slot s.unwait) := by
  refine .require fun _ => .require fun _ => .ite (fun _ => ?_) fun _ => .acquire ?_
  · exact .pure (.store s.unwait_storeKept ((((Quiet.refl _).setRes0 _).setRes1 _).ret _))
  · refine .pure (.store ?_ ((((Quiet.refl _).setRes0 _).setRes1 _).ret _))
    refine (s.unwait_storeKept.trans (s.unwait.lock_storeKept slot)).trans (.modify fun _ h => ?_)
    exact h.entryChanged (fun _ hx => hx) fun hlt => absurd hlt (lt_irrefl _)

theorem State.retag_storeKept (frame k : Nat) : StoreKept s.build s.cur s.store (s.retag frame k).store := by
  unfold State.retag
  split
  · exact .modify fun _ h => (h.shrunk (Nat.zero_le _)).tagged frame
  · exact .modify fun _ h => h.tagged frame

theorem State.retag_quiet (frame k : Nat) :
    Quiet { s with store := (s.retag frame k).store } (s.retag frame k) := by
  unfold State.retag
  split
  · exact (Quiet.refl _).log _ _ _
  · exact Quiet.refl _

/-- Reserving an entry of a slot that is not full keeps the store sound. -/
theorem State.reserve_storeKept {ptype k : Nat} (ht : 1 ≤ ptype ∧ ptype ≤ 4)
    (hn : (s.slotRec k).numberPdus < s.build.nPdu) :
    StoreKept s.build s.cur s.store (s.reserve ptype k).store :=
  .modify fun _ h => h.reserved hn ht

/-- What UL_LOCK_GET does once it holds the lock keeps the store sound and answers (R401). -/
theorem lockGetGranted_effect {ptype : Nat} (ht : 1 ≤ ptype ∧ ptype ≤ 4) (frame k : Nat) :
    StoreKept s.build s.cur s.store (lockGetGranted ptype frame k s).store ∧
      Quiet { s with store := (lockGetGranted ptype frame k s).store } (lockGetGranted ptype frame k s) := by
  have hq := s.retag_quiet frame k
  have hk := s.retag_storeKept frame k
  unfold lockGetGranted
  generalize s.retag frame k = t at hq hk
  have hb : t.build = s.build := hq.build
  have hc : t.cur = s.cur := hq.cur
  have hstore : ∀ st, Quiet { s with store := st } { t with store := st } := fun st =>
    ⟨⟨hq.ports, hq.cfg, hq.cfgValid, hq.initDone, hq.halted, hq.faultCode, hq.faultPort, hq.faultCmd, rfl, hq.harq,
      hq.build, hq.cur, hq.inputs⟩, hq.lc⟩
  dsimp only
  split
  · exact ⟨hk.trans (.modify fun _ h => h.unlocked), (((hstore _).log _ _ _).setRes0 _).ret _⟩
  · rename_i hfull
    have hr := t.reserve_storeKept ht (not_le.mp hfull)
    rw [hb, hc] at hr
    exact ⟨hk.trans hr, ((hstore _).setRes0 _).ret _⟩

theorem ulLockGetBody_effect (ptype frame slot : Nat) :
    EndsIn (Effect s) (ulLockGetBody ptype frame slot s.unwait) := by
  refine .require fun _ => .require fun _ => .require fun ht => .ite (fun _ => ?_) fun _ => .acquire ?_
  · exact .pure (.store s.unwait_storeKept ((((Quiet.refl _).log _ _ _).setRes0 _).ret _))
  · obtain ⟨hk, hq⟩ := lockGetGranted_effect
      (s.unwait.modSlot slot fun r => { r with lock := some s.unwait.cur }) ht frame slot
    exact .pure (.store ((s.unwait_storeKept.trans (s.unwait.lock_storeKept slot)).trans hk) hq)

theorem ulPduWriteBody_effect (handle : Nat) : EndsIn (Effect s) (ulPduWriteBody handle s) :=
  .require fun _ => .checkHandle <| .require fun _ => .bind fun _ => .pure <| .store
    (.modify fun _ h => h.entryChanged (fun _ _ => readBytes_length ..) fun _ _ => rfl) ((Quiet.refl _).ret _)

theorem puschBuildBody_effect (daddr : Nat) : EndsIn (Effect s) (puschBuildBody daddr s) := by
  refine .require fun _ => .bind fun bs => .require fun _ => .require fun _ => .require fun _ => .require fun _ =>
    .require fun _ => .checkHandle <| .require fun _ => ?_
  split
  · exact .pure (.quiet ((Quiet.refl s).skipGrant ..))
  · rename_i x hx
    refine .pure (.tables ?_ (.modify fun _ h => h.updated hx) ((((Quiet.refl _).setRes0 _).setRes1 _).ret _))
    exact .modify fun _ h => h.entryChanged (fun _ _ => pduBytes_length _) fun _ _ => rfl

end

end Sys2Proof.Machine
end
section
/-! ### Sound logical channels (spec/10_state.md R114, spec/41_lcp_bsr.md R500 to R522) -/

namespace Sys2Proof.Machine

theorem LcEntry.afterReset_ok (spf : Nat) : LcEntry.afterReset.Ok spf :=
  ⟨by decide, by decide, by decide, fun _ => by decide, fun h => by cases h⟩

section
variable {spf : Nat} {l : LcEntry}

/-- A configured channel is sound: a new one has an empty bucket, another one at most its old one (R500). -/
theorem LcEntry.Ok.configured (h : l.Ok spf) {d : LcDesc} (hd : d.legal spf = true) :
    (l.configure d (d.frame * spf + d.slot)).Ok spf := by
  obtain ⟨hsize, hlow, hhigh, hcap, hlegal⟩ := h
  simp only [LcDesc.legal, decide_eq_true_eq] at hd
  obtain ⟨-, -, hp1, hp16, hlcg, -, hb, hf, hs⟩ := hd
  have hnow : d.frame * spf + d.slot < 1024 * spf := by
    have := Nat.mul_le_mul_right spf hf
    omega
  have hold : l.configured ≠ false → l.lastUpdate < 1024 * spf := fun hc => (hlegal (by simpa using hc)).2.2.2
  refine ⟨hb, ?_, ?_, fun hinf => ?_, fun _ => ⟨hp1, hp16, hlcg, ?_⟩⟩
  · simp only [LcEntry.configure]
    split_ifs <;> omega
  · simp only [LcEntry.configure]
    split_ifs <;> omega
  · simp only [LcEntry.configure, beq_eq_false_iff_ne, ne_eq] at hinf ⊢
    split_ifs <;> omega
  · simp only [LcEntry.configure]
    split_ifs with hc
    · exact hnow
    · exact hold hc

theorem LcEntry.Ok.applied (h : l.Ok spf) {d : LcDesc} (hd : d.legal spf = true) :
    (l.apply d (d.frame * spf + d.slot)).Ok spf := by
  unfold LcEntry.apply
  split
  · exact LcEntry.afterReset_ok spf
  · exact h.configured hd

/-- A credit is never negative and stops at the bucket size (R510, R511). -/
theorem LcEntry.Ok.credited (h : l.Ok spf) {now : Nat} (hnow : now < 1024 * spf) : (l.credit spf now).Ok spf := by
  obtain ⟨hsize, hlow, hhigh, hcap, hlegal⟩ := h
  have hgain : 0 ≤ (l.pbrMs : Int) * (((now : Int) - l.lastUpdate) % (1024 * spf : Nat)) :=
    Int.mul_nonneg (Int.natCast_nonneg _) (Int.emod_nonneg _ (by omega))
  refine ⟨hsize, ?_, ?_, fun hinf => ?_, fun hc => ?_⟩
  · simp only [LcEntry.credit]
    split_ifs <;> omega
  · simp only [LcEntry.credit]
    split_ifs <;> omega
  · have hinf' : l.pbrInf = false := hinf
    simp only [LcEntry.credit, hinf']
    exact min_le_right ..
  · obtain ⟨hp1, hp16, hlcg, -⟩ := hlegal hc
    exact ⟨hp1, hp16, hlcg, hnow⟩

/-- A payment keeps a channel sound when the bucket stays above the bound (R522). -/
theorem LcEntry.Ok.charged (h : l.Ok spf) {k : Nat} (hk : l.pbrInf = false → -2 ^ 26 < l.bj - k) :
    ({ l with bj := if l.pbrInf then l.bj else l.bj - k } : LcEntry).Ok spf := by
  cases hinf : l.pbrInf with
  | true => exact ⟨h.size, h.low, h.high, fun hf => (by cases hf), h.legal⟩
  | false =>
    have hhigh := h.high
    have hcap := h.cap hinf
    exact ⟨h.size, hk hinf, by change l.bj - k < 2 ^ 31; omega, fun _ => by change l.bj - k ≤ l.bucketSize; omega,
      h.legal⟩

end

theorem lcConfigBody_effect (daddr : Nat) (s : State) : EndsIn (Effect s) (lcConfigBody daddr s) := by
  refine .require fun hi => .bind fun bs => .require fun hd => .pure (.channels hi ?_ ?_ ?_)
  · simp
  · intro hl x hx
    rcases mem_modify hx with hx | ⟨hk, rfl⟩
    · exact hl x hx
    · exact (hl _ (List.getElem_mem hk)).applied hd
  · constructor <;> simp

/-! ### The passes of LCP_RUN (spec/41_lcp_bsr.md R514 to R519) -/

section
variable {s t : State}

theorem Quiet.withOracle (h : Quiet s t) (a : List RlcAnswer) (n : Nat) : Quiet s { t with rlc := a, draws := n } :=
  h.trans (by constructor <;> constructor <;> rfl)

theorem State.rlcStatus_quiet (s : State) (j : Nat) : Quiet s (s.rlcStatus j).2 := by
  rw [s.rlcStatus_frame j]
  exact (Quiet.refl s).withOracle _ _

theorem State.rlcData_quiet (s : State) (j n : Nat) : Quiet s (s.rlcData j n).2 := by
  rw [(s.rlcData_frame j n).2]
  exact (Quiet.refl s).withOracle _ _

theorem State.rlcStatuses_quiet (s : State) (l : List Nat) : Quiet s (s.rlcStatuses l).2 := by
  rw [(s.rlcStatuses_frame l).2]
  exact (Quiet.refl s).withOracle _ _

theorem State.triggerEval_quiet (s : State) (st : List (Nat × Nat)) : Quiet s (s.triggerEval st) := by
  unfold State.triggerEval
  split
  · constructor <;> constructor <;> rfl
  · exact Quiet.refl s

theorem Quiet.lcEntry (h : Quiet s t) (j : Nat) : t.lcEntry j = s.lcEntry j := by
  rw [State.lcEntry, State.lcEntry, h.lc]

end

/-- A request never asks for more than fits behind a subheader of 3 bytes (R515, R516). -/
theorem lcpRequest_le (b : Build) (pass : Nat) (ep : Int) (remain : Nat) (l : LcEntry) :
    lcpRequest b pass ep remain l ≤ (remain : Int) - 3 := by
  unfold lcpRequest
  split_ifs <;> omega

theorem sduHeader_length (j k : Nat) : 2 ≤ (sduHeader j k).length ∧ (sduHeader j k).length ≤ 3 := by
  unfold sduHeader
  split <;> simp

/-- Where an LCP_RUN from `s` with `n` bytes of space can be, `D` being the channels it started with: the channels
stay sound, and a finite bucket of `D` started above 0 and has paid for no more than the space taken since. -/
structure LcpInv (s : State) (n : Nat) (D : List Nat) (r : LcpProgress) : Prop where
  frame : Frame s r.st
  length : r.st.lc.length = s.lc.length
  space : r.remain ≤ n
  sound : (∀ l ∈ s.lc, l.Ok s.spf) → ∀ l ∈ r.st.lc, l.Ok s.spf
  paid : ∀ j ∈ D, (r.st.lcEntry j).pbrInf = false → 1 ≤ (r.st.lcEntry j).bj + (n - r.remain)
  known : ∀ j ∈ r.ds, j ∈ D

section
variable {s : State} {n : Nat} {D : List Nat} {r : LcpProgress}

/-- A step that leaves the logical channels and the space alone. -/
theorem LcpInv.quiet (h : LcpInv s n D r) {t : State} (ht : Quiet r.st t) {ds : List Nat} (hds : ∀ j ∈ ds, j ∈ D)
    (out : List Byte) (served : Nat) : LcpInv s n D ⟨t, r.remain, out, ds, served⟩ where
  frame := h.frame.trans ht.toFrame
  length := (congrArg List.length ht.lc).trans h.length
  space := h.space
  sound := by
    change _ → ∀ l ∈ t.lc, l.Ok s.spf
    rw [ht.lc]
    exact h.sound
  paid j hj := by
    change (t.lcEntry j).pbrInf = false → 1 ≤ (t.lcEntry j).bj + (n - r.remain)
    rw [ht.lcEntry]
    exact h.paid j hj
  known := hds

theorem LcpInv.filter_known (h : LcpInv s n D r) (p : Nat → Bool) : ∀ j ∈ r.ds.filter p, j ∈ D :=
  fun j hj => h.known j (List.mem_of_mem_filter hj)

/-- One payment: `k` bytes of channel `j` that take `m` bytes of space, at least their own. -/
theorem LcpInv.charge (h : LcpInv s n D r) (hn : n ≤ 2 ^ 26) {j k m : Nat} (hj : j ∈ D) (hkm : k ≤ m)
    (hm : m ≤ r.remain) : LcpInv s n D { r with st := r.st.charge j k, remain := r.remain - m } where
  frame := h.frame.trans (by constructor <;> simp)
  length := by simpa using h.length
  space := (Nat.sub_le ..).trans h.space
  sound hs l hl := by
    rcases mem_modify hl with hl | ⟨hlt, rfl⟩
    · exact h.sound hs l hl
    · refine (h.sound hs _ (List.getElem_mem hlt)).charged fun hinf => ?_
      have hentry : r.st.lcEntry j = r.st.lc[j] := List.getD_eq_getElem _ _ hlt
      have hpaid := h.paid j hj (hentry ▸ hinf)
      rw [hentry] at hpaid
      have hspace := h.space
      omega
  paid i hi := by
    have hpaid := h.paid i hi
    change ((r.st.charge j k).lcEntry i).pbrInf = false →
      1 ≤ ((r.st.charge j k).lcEntry i).bj + ((n : Int) - ((r.remain - m : Nat) : Int))
    rw [State.charge_lcEntry]
    split
    · rename_i hij
      obtain ⟨rfl, -⟩ := hij
      intro hinf
      have hinf' : (r.st.lcEntry i).pbrInf = false := hinf
      have hpaid' := hpaid hinf'
      simp only [hinf', Bool.false_eq_true, if_false]
      omega
    · intro hinf
      have hpaid' := hpaid hinf
      omega
  known := h.known

theorem lcpServe_inv (h : LcpInv s n D r) (hn : n ≤ 2 ^ 26) {j : Nat} (hj : j ∈ D) {data : List Byte}
    (hd : data.length + 3 ≤ r.remain) : LcpInv s n D (lcpServe j data r) := by
  have hheader := sduHeader_length j data.length
  unfold lcpServe
  split
  · exact h.quiet (Quiet.refl _) (h.filter_known _) _ _
  · have hc := h.charge hn hj (k := data.length) (m := (sduHeader j data.length ++ data).length)
      (by rw [List.length_append]; omega) (by rw [List.length_append]; omega)
    refine hc.quiet (State.rlcStatus_quiet _ j) ?_ _ _
    split
    · exact h.known
    · exact h.filter_known _

theorem lcpTurn_inv (h : LcpInv s n D r) (hn : n ≤ 2 ^ 26) (pass : Nat) (ep : Int) {j : Nat} (hj : j ∈ D) :
    LcpInv s n D (lcpTurn pass ep r j) := by
  unfold lcpTurn
  split
  · exact h
  · dsimp only
    split
    · exact h
    · have hreq := lcpRequest_le r.st.build pass ep r.remain (r.st.lcEntry j)
      have hlen := (r.st.rlcData_frame j (lcpRequest r.st.build pass ep r.remain (r.st.lcEntry j)).toNat).1
      refine lcpServe_inv (h.quiet (r.st.rlcData_quiet j _) h.known _ _) hn hj ?_
      change _ + 3 ≤ r.remain
      omega

theorem lcpTier_inv (h : LcpInv s n D r) (hn : n ≤ 2 ^ 26) (pass priority : Nat) :
    LcpInv s n D (lcpTier pass r priority) :=
  List.foldlRecOn _ _ h fun _ hr _ hj => lcpTurn_inv hr hn _ _ (h.filter_known _ _ hj)

theorem lcpPass_inv (h : LcpInv s n D r) (hn : n ≤ 2 ^ 26) (pass : Nat) : LcpInv s n D (lcpPass pass r) :=
  List.foldlRecOn _ _ h fun _ hr p _ => lcpTier_inv hr hn pass p

theorem lcpPasses_inv (hn : n ≤ 2 ^ 26) (fuel pass : Nat) (h : LcpInv s n D r) :
    LcpInv s n D (lcpPasses fuel pass r) := by
  induction fuel generalizing pass r with
  | zero => exact h
  | succ fuel ih =>
    have hpass := lcpPass_inv (h.quiet (Quiet.refl _) h.known r.out 0) hn pass
    unfold lcpPasses
    split
    · exact h
    · dsimp only
      split
      · exact hpass
      · exact ih (pass + 1) hpass

end

/-! ### LCP_RUN (spec/41_lcp_bsr.md R520) -/

/-- The passes start with eligible channels: an infinite PBR, or a bucket above 0 (R513). -/
theorem lcpStart_inv {s t : State} (h : Quiet s t) (n : Nat) (st : List (Nat × Nat)) :
    LcpInv s n (lcpStart n st t).ds (lcpStart n st t) where
  frame := h.toFrame
  length := congrArg List.length h.lc
  space := le_refl n
  sound hs := by
    change ∀ l ∈ t.lc, l.Ok s.spf
    rw [h.lc]
    exact hs
  paid j hj hinf := by
    have helig := (List.mem_filter.mp (List.mem_of_mem_filter hj)).2
    have hinf' : (t.lcEntry j).pbrInf = false := hinf
    simp only [hinf', Bool.false_or, decide_eq_true_eq] at helig
    change 1 ≤ (t.lcEntry j).bj + ((n : Int) - (n : Int))
    omega
  known _ hj := hj

/-- The passes and the abort keep the channels sound. -/
theorem lcpServeAll_inv (s : State) {d : LcpDesc} (hn : d.buflen ≤ 2 ^ 26) :
    ∃ D, LcpInv s d.buflen D (lcpServeAll d s).1 := by
  have ht : Quiet s ((s.rlcStatuses s.channels).2.triggerEval (s.rlcStatuses s.channels).1) :=
    (s.rlcStatuses_quiet s.channels).trans (State.triggerEval_quiet _ _)
  have hstart := lcpStart_inv ht d.buflen (s.rlcStatuses s.channels).1
  unfold lcpServeAll
  dsimp only
  split
  · exact ⟨_, hstart.quiet ((Quiet.refl _).log _ _ _) hstart.known _ _⟩
  · exact ⟨_, lcpPasses_inv hn _ _ hstart⟩

theorem lcpFinish_quiet (d : LcpDesc) (trig aborted : Bool) (r : LcpProgress) :
    Quiet r.st (lcpFinish d trig aborted r) := by
  have hq := r.st.rlcStatuses_quiet r.st.channels
  unfold lcpFinish
  generalize r.st.rlcStatuses r.st.channels = q at hq
  refine (hq.trans ?_).ret _
  constructor <;> constructor <;> simp

theorem lcpRunBody_effect (daddr : Nat) (s : State) : EndsIn (Effect s) (lcpRunBody daddr s) := by
  refine .require fun hi => .bind fun bs => .require fun hd => .checkRegion fun hregion => .require fun _ =>
    .require fun _ => .require fun _ => .pure ?_
  generalize lcpDescOfBytes bs = d at hd hregion
  have hnow : s.absSlot d.frame d.slot < 1024 * s.spf := by
    simp only [LcpDesc.legal, decide_eq_true_eq] at hd
    obtain ⟨-, hf, hs, -⟩ := hd
    have := Nat.mul_le_mul_right s.spf hf
    unfold State.absSlot
    omega
  have hbuflen : d.buflen ≤ 2 ^ 26 := by
    have hsize : s.build.dmemSize ≤ 2 ^ 26 := Nat.le_of_lt_succ s.build.dmemSizeFin.isLt
    omega
  generalize s.absSlot d.frame d.slot = now at hnow
  obtain ⟨D, hinv⟩ := lcpServeAll_inv (s.creditAll now) hbuflen
  have hquiet := lcpFinish_quiet d (lcpServeAll d (s.creditAll now)).2.2 (lcpServeAll d (s.creditAll now)).2.1
    (lcpServeAll d (s.creditAll now)).1
  refine .channels hi ?_ (fun hs => ?_) ?_
  · rw [hquiet.lc, hinv.length]
    simp
  · rw [hquiet.lc]
    refine hinv.sound fun l hl => ?_
    simp only [State.creditAll_lc, List.mem_map] at hl
    obtain ⟨l, hl, rfl⟩ := hl
    split
    · exact (hs l hl).credited hnow
    · exact hs l hl
  · exact Frame.trans (by constructor <;> simp) (hinv.frame.trans hquiet.toFrame)

end Sys2Proof.Machine
end
section
/-! ### The step of a command and of the machine (spec/60_exceptions.md R1000, spec/20_memory.md R220, R221) -/

namespace Sys2Proof.Machine

/-- The body of a command, run where `exec` runs it: an acquiring command has first left the locks it waited for. -/
def commandBody (s : State) : Instr → Except Stop State
  | .cfgWrite daddr => cfgWriteBody daddr s
  | .init => initBody s
  | .lcConfig daddr => lcConfigBody daddr s
  | .taExpiry => taExpiryBody s.unwait
  | .ulLockGet ptype frame slot => ulLockGetBody ptype frame slot s.unwait
  | .ulRelease clr handle => ulReleaseBody clr handle s
  | .ulRemoveLast handle => ulRemoveLastBody handle s
  | .ulIterGet _ slot => ulIterGetBody slot s.unwait
  | .ulPduWrite handle => ulPduWriteBody handle s
  | .ulPduRead handle => ulPduReadBody handle s
  | .grantTarget daddr => grantTargetBody daddr s
  | .puschBuild daddr => puschBuildBody daddr s
  | .harqRead index => harqReadBody index s
  | .lcpRun daddr => lcpRunBody daddr s
  | .bsrEval daddr => bsrEvalBody daddr s
  | .lcRead index => lcReadBody index s
  | .layerMap daddr => layerMapBody daddr s
  | .tpDft daddr => tpDftBody daddr s
  | .mapPusch daddr => mapPuschBody daddr s
  | .precode daddr => precodeBody daddr s
  | .llr16Qam daddr => llrBody 1 daddr s
  | .llr64Qam daddr => llrBody 2 daddr s
  | .llr256Qam daddr => llrBody 3 daddr s

/-- Every command is the `finish` of its body: none is refused and none stops the model. -/
theorem exec_eq_finish (i : Instr) (s : State) : exec i s = .next (finish s (commandBody s i)) := by
  cases i <;> rfl

theorem commandBody_effect (s : State) (i : Instr) : EndsIn (Effect s) (commandBody s i) := by
  have quiet : ∀ {x : Except Stop State}, EndsIn (Quiet s) x → EndsIn (Effect s) x := fun h => h.mono fun _ => .quiet
  cases i with
  | cfgWrite daddr => exact cfgWriteBody_effect s daddr
  | init => exact initBody_effect s
  | lcConfig daddr => exact lcConfigBody_effect daddr s
  | taExpiry => exact taExpiryBody_effect s
  | ulLockGet ptype frame slot => exact ulLockGetBody_effect s ptype frame slot
  | ulRelease clr handle => exact ulReleaseBody_effect s clr handle
  | ulRemoveLast handle => exact ulRemoveLastBody_effect s handle
  | ulIterGet _ slot => exact ulIterGetBody_effect s slot
  | ulPduWrite handle => exact ulPduWriteBody_effect s handle
  | ulPduRead handle => exact quiet (ulPduReadBody_quiet s handle)
  | grantTarget daddr => exact quiet (grantTargetBody_quiet s daddr)
  | puschBuild daddr => exact puschBuildBody_effect s daddr
  | harqRead index => exact quiet (harqReadBody_quiet s index)
  | lcpRun daddr => exact lcpRunBody_effect daddr s
  | bsrEval daddr => exact quiet (bsrEvalBody_quiet s daddr)
  | lcRead index => exact quiet (lcReadBody_quiet s index)
  | layerMap daddr => exact quiet (layerMapBody_quiet s daddr)
  | tpDft daddr => exact quiet (tpDftBody_quiet s daddr)
  | mapPusch daddr => exact quiet (mapPuschBody_quiet s daddr)
  | precode daddr => exact quiet (precodeBody_quiet s daddr)
  | llr16Qam daddr => exact quiet (llrBody_quiet s 1 daddr)
  | llr64Qam daddr => exact quiet (llrBody_quiet s 2 daddr)
  | llr256Qam daddr => exact quiet (llrBody_quiet s 3 daddr)

/-- The end of a command's step: a fault, or one of the effects, of which the hold is one. -/
def CommandEnd (s t : State) : Prop := (∃ c, t = s.raiseFault c) ∨ Effect s t

theorem State.hold_effect (s : State) (l : List Nat) : Effect s (s.hold l) := by
  refine .store (s.hold_storeKept l) ?_
  rw [← (s.hold_eq l).1]
  exact Quiet.refl _

theorem exec_end (i : Instr) (s : State) : ∃ t, exec i s = .next t ∧ CommandEnd s t := by
  refine ⟨_, exec_eq_finish i s, ?_⟩
  rcases finish_cases s (commandBody s i) with ⟨t, ht, he⟩ | ⟨c, -, he⟩ | ⟨l, -, he⟩
  · rw [he]
    exact .inr (commandBody_effect s i t ht)
  · exact .inl ⟨c, he⟩
  · rw [he]
    exact .inr (s.hold_effect l)

theorem runCommand_end (s : State) : ∃ t, runCommand s = .next t ∧ CommandEnd s t := by
  unfold runCommand
  split
  · exact exec_end _ s
  · exact ⟨_, rfl, .inl ⟨_, rfl⟩⟩

/-- A turn does nothing, or runs a command of a PTB that is not halted; DMEM apart, nothing else changes. -/
theorem takeTurn_cases {p : Nat} {drawn : List Host.Cell} {s t : State} (h : takeTurn p drawn s = .next t) :
    t = s ∨ s.halted = false ∧ ∃ u m, CommandEnd (s.turnStart p drawn) u ∧ t = { u with mem := m } := by
  cases he : s.enabled p with
  | false =>
    rw [takeTurn_of_not_enabled he] at h
    cases h
    exact .inl rfl
  | true =>
    obtain ⟨u, hu, hend⟩ := runCommand_end (s.turnStart p drawn)
    rw [takeTurn_of_enabled he drawn hu] at h
    cases h
    exact .inr ⟨((s.enabled_iff p).mp he).1, u, _, hend, rfl⟩

/-- What one step can do: reset; an agent's write or no more than the next input; or the turn of a port that exists,
while the PTB is not halted. -/
inductive StepEnd (s : State) : State → Prop
  | reset (rest : List Input) (input : s.inputs = .reset :: rest) : StepEnd s { s with inputs := rest }.resetInput
  | idle {t : State} (rest : List Input) (frame : Quiet { s with inputs := rest } t) : StepEnd s t
  | turn {u : State} (rest : List Input) (draws p : Nat) (drawn m : List Host.Cell) (port : p < s.build.nPorts)
      (running : s.halted = false)
      (ends : CommandEnd ({ s with inputs := rest, draws := draws }.turnStart p drawn) u) :
      StepEnd s { u with mem := m }

theorem State.setArg_quiet (s : State) (p : Nat) (k : Fin 4) (v : Word) : Quiet s (s.setArg p k v) := by
  refine ⟨⟨List.length_modify .., ?_, ?_, ?_, ?_, ?_, ?_, ?_, ?_, ?_, ?_, ?_, ?_⟩, ?_⟩ <;> simp

theorem State.writeCmd_quiet (s : State) (p : Nat) (w : Word) : Quiet s (s.writeCmd p w) := by
  unfold State.writeCmd
  split
  · exact Quiet.refl s
  · constructor <;> constructor <;> simp

theorem stepEnd_of_takeTurn {s t : State} {rest : List Input} {draws p : Nat} {drawn : List Host.Cell}
    (hp : p < s.build.nPorts) (h : takeTurn p drawn { s with inputs := rest, draws := draws } = .next t) :
    StepEnd s t := by
  rcases takeTurn_cases h with rfl | ⟨hh, u, m, hend, rfl⟩
  · exact .idle rest ((Quiet.refl _).withOracle _ draws)
  · exact .turn rest draws p drawn m hp hh hend

theorem State.freePort_lt (s : State) : s.freePort < s.build.nPorts :=
  Nat.mod_lt _ (Nat.succ_pos _)

theorem step_cases {s t : State} (h : step s = .next t) : StepEnd s t := by
  unfold step at h
  split at h
  case h_1 hi =>
    split at h
    · cases h
      exact .idle s.inputs (Quiet.refl s)
    · exact stepEnd_of_takeTurn s.freePort_lt (rest := s.inputs) h
  case h_2 p k v rest hi =>
    split at h
    · cases h
      exact .idle rest (State.setArg_quiet _ p k v)
    · cases h
  case h_3 p w rest hi =>
    split at h
    · cases h
      exact .idle rest (State.writeCmd_quiet _ p w)
    · cases h
  case h_4 p a b rest hi =>
    split at h
    · cases h
    · split at h
      · cases h
        exact .idle rest ((Quiet.refl _).withMem _)
      · cases h
  case h_5 p drawn rest hi =>
    split at h
    · exact stepEnd_of_takeTurn ‹_› (draws := s.draws) h
    · cases h
  case h_6 rest hi =>
    cases h
    exact .reset rest hi

/-- An invariant is kept by every step when reset meets it and it is kept by what only answers, by the model's own
bookkeeping, by a fault and by the effect of a command whose port exists. -/
theorem step_keeps {P : State → Prop} (reset : ∀ s : State, P s.resetInput)
    (quiet : ∀ s t : State, Quiet s t → P s → P t)
    (own : ∀ (s : State) (rest : List Input) (n p : Nat) (m : List Host.Cell), p < s.build.nPorts → P s →
      P { s with inputs := rest, draws := n, cur := p, mem := m })
    (fault : ∀ (s : State) (c : FaultCode), P s → P (s.raiseFault c))
    (effect : ∀ s t : State, s.cur < s.build.nPorts → Effect s t → P s → P t)
    (inputs : ∀ (s : State) (rest : List Input), P s → P { s with inputs := rest })
    {s t : State} (h : step s = .next t) (hs : P s) : P t := by
  cases step_cases h with
  | reset rest _ => exact reset _
  | idle rest frame => exact quiet _ _ frame (inputs s rest hs)
  | turn rest draws p drawn m port running ends =>
    have hstart : P ({ s with inputs := rest, draws := draws }.turnStart p drawn) := own s rest draws p _ port hs
    refine quiet _ _ ((Quiet.refl _).withMem m) ?_
    rcases ends with ⟨c, rfl⟩ | he
    · exact fault _ c hstart
    · exact effect _ _ port he hstart

end Sys2Proof.Machine
end
section
/-! ### The store (spec/10_state.md R110, R111) -/

namespace Sys2Proof.Machine

theorem Frame.storeInv {s t : State} (h : Frame s t) (hs : s.StoreInv) : t.StoreInv := by
  simp only [State.StoreInv, State.slotRec, h.initDone, h.store, h.spf, h.build]
  exact hs

theorem freshStore_ok (b : Build) (spf : Nat) :
    (freshStore spf b.nPdu).length = spf ∧ ∀ k < spf, ((freshStore spf b.nPdu).getD k default).Ok b k := by
  refine ⟨by simp [freshStore], fun k hk => ?_⟩
  have hget : (freshStore spf b.nPdu).getD k default = SlotRec.fresh b.nPdu k := by
    simp [freshStore, hk]
  rw [hget]
  exact SlotRec.fresh_ok b k

theorem StoreKept.storeInv {s : State} {st : List SlotRec} (h : StoreKept s.build s.cur s.store st)
    (hc : s.cur < s.build.nPorts) (hs : s.StoreInv) : ({ s with store := st } : State).StoreInv := by
  obtain ⟨hbefore, hafter⟩ := hs
  refine ⟨fun hi => ?_, fun hi => ?_⟩
  · exact List.eq_nil_of_length_eq_zero (by rw [h.length, hbefore hi]; rfl)
  · obtain ⟨hlen, hok⟩ := hafter hi
    exact ⟨h.length.trans hlen, fun k hk => h.sound hc k (hok k hk)⟩

theorem Effect.storeInv {s t : State} (h : Effect s t) (hc : s.cur < s.build.nPorts) (hs : s.StoreInv) :
    t.StoreInv := by
  cases h with
  | quiet g => exact g.toFrame.storeInv hs
  | config _ mu frame =>
    refine frame.toFrame.storeInv ⟨hs.1, fun hi => ?_⟩
    have hspf : t.cfg.spf = s.cfg.spf := by rw [CfgRegs.spf, CfgRegs.spf, mu hi]
    simp only [State.spf, hspf]
    exact hs.2 hi
  | init valid first frame =>
    exact frame.toFrame.storeInv ⟨fun hi => (by cases hi), fun _ => freshStore_ok s.build s.spf⟩
  | tables store harq frame => exact frame.toFrame.storeInv (store.storeInv hc hs)
  | channels _ _ _ frame => exact frame.storeInv hs

/-- Settles O22: every effect of a command keeps each record sound, and CFG_WRITE after INIT keeps their number. -/
theorem stepKeepsStoreSound : Obligations.StepKeepsStoreSound := by
  intro s t hs h
  exact step_keeps (fun _ => ⟨fun _ => rfl, fun hi => (by cases hi)⟩) (fun _ _ g => g.toFrame.storeInv)
    (fun _ _ _ _ _ _ hs => hs) (fun _ _ hs => hs) (fun _ _ hc g => g.storeInv hc) (fun _ _ hs => hs) h hs

/-! ### The logical channels (spec/10_state.md R114, spec/41_lcp_bsr.md R511, R512) -/

theorem Quiet.lcInv {s t : State} (h : Quiet s t) (hs : s.LcInv) : t.LcInv := by
  simp only [State.LcInv, h.initDone, h.lc, h.spf]
  exact hs

/-- A channel that is not configured is sound whatever the number of slots. -/
theorem LcEntry.Ok.of_not_configured {spf spf' : Nat} {l : LcEntry} (h : l.Ok spf) (hc : l.configured = false) :
    l.Ok spf' :=
  ⟨h.size, h.low, h.high, h.cap, fun ht => by rw [hc] at ht; cases ht⟩

theorem Effect.lcInv {s t : State} (h : Effect s t) (hs : s.LcInv) : t.LcInv := by
  obtain ⟨hbefore, hok⟩ := hs
  cases h with
  | quiet g => exact g.lcInv ⟨hbefore, hok⟩
  | config _ mu frame =>
    refine frame.lcInv ⟨hbefore, fun l hl => ?_⟩
    cases hi : s.initDone with
    | false => exact (hok l hl).of_not_configured (hbefore hi l hl)
    | true =>
      have hspf : t.cfg.spf = s.cfg.spf := by rw [CfgRegs.spf, CfgRegs.spf, mu hi]
      simp only [State.spf, hspf]
      exact hok l hl
  | init valid first frame => exact frame.lcInv ⟨fun hi => (by cases hi), hok⟩
  | tables store harq frame => exact frame.lcInv ⟨hbefore, hok⟩
  | channels done length sound frame =>
    refine ⟨fun hi => ?_, ?_⟩
    · rw [frame.initDone, done] at hi
      cases hi
    · rw [frame.spf]
      exact sound hok

theorem State.resetInput_lcInv (s : State) : s.resetInput.LcInv :=
  ⟨fun _ l hl => by rw [List.eq_of_mem_replicate hl]; rfl,
    fun l hl => by rw [List.eq_of_mem_replicate hl]; exact LcEntry.afterReset_ok _⟩

/-- Settles O23: a payment of LCP_RUN takes less than the space of its MAC PDU from a bucket above 0, and every other
change of a bucket is a credit or a cap. -/
theorem stepKeepsBucketsInRange : Obligations.StepKeepsBucketsInRange := by
  intro s t hs h
  exact step_keeps State.resetInput_lcInv (fun _ _ g => g.lcInv)
    (fun _ _ _ _ _ _ hs => hs) (fun _ _ hs => hs) (fun _ _ _ g => g.lcInv) (fun _ _ hs => hs) h hs

/-! ### Flags (spec/10_state.md R105) -/

/-- The flags of the second state are set where those of the first are, and the implementation is the same. -/
structure FlagsKept (s t : State) : Prop where
  build : t.build = s.build
  cfgValid : s.cfgValid = true → t.cfgValid = true
  initDone : s.initDone = true → t.initDone = true
  halted : s.halted = true → t.halted = true

theorem Frame.flagsKept {s t : State} (h : Frame s t) : FlagsKept s t :=
  ⟨h.build, h.cfgValid.trans, h.initDone.trans, h.halted.trans⟩

theorem Effect.flagsKept {s t : State} (h : Effect s t) : FlagsKept s t := by
  cases h with
  | quiet g => exact g.toFrame.flagsKept
  | config _ _ frame => exact ⟨frame.build, fun _ => frame.cfgValid, frame.initDone.trans, frame.halted.trans⟩
  | init _ _ frame => exact ⟨frame.build, frame.cfgValid.trans, fun _ => frame.initDone, frame.halted.trans⟩
  | tables _ _ frame => exact ⟨frame.build, frame.cfgValid.trans, frame.initDone.trans, frame.halted.trans⟩
  | channels _ _ _ frame => exact frame.flagsKept

theorem CommandEnd.flagsKept {s t : State} (h : CommandEnd s t) : FlagsKept s t := by
  rcases h with ⟨c, rfl⟩ | h
  · exact ⟨rfl, id, id, fun _ => rfl⟩
  · exact h.flagsKept

/-- Settles O13: only CFG_WRITE, INIT and a fault write a flag, and they set it. -/
theorem flagsClearedByResetOnly : Obligations.FlagsClearedByResetOnly := by
  intro s t h
  have of_kept : FlagsKept s t → t.build = s.build ∧ ((∀ rest, s.inputs ≠ .reset :: rest) →
      (s.cfgValid = true → t.cfgValid = true) ∧ (s.initDone = true → t.initDone = true) ∧
      (s.halted = true → t.halted = true)) :=
    fun k => ⟨k.build, fun _ => ⟨k.cfgValid, k.initDone, k.halted⟩⟩
  cases step_cases h with
  | reset rest input => exact ⟨rfl, fun hn => absurd input (hn rest)⟩
  | idle rest frame =>
    have k := frame.toFrame.flagsKept
    exact of_kept ⟨k.build, k.cfgValid, k.initDone, k.halted⟩
  | turn rest draws p drawn m port running ends =>
    have k := ends.flagsKept
    exact of_kept ⟨k.build, k.cfgValid, k.initDone, k.halted⟩

/-! ### Register files, fault registers, CFG and the HARQ table (spec/10_state.md R101, R105, R108, R113) -/

theorem Effect.shapeInv {s t : State} (h : Effect s t) (hs : s.ShapeInv) : t.ShapeInv := by
  obtain ⟨hports, hharq, hlc, hcur⟩ := hs
  have of_frame : ∀ {u : State}, Frame u t → u.ports = s.ports → u.build = s.build → u.cur = s.cur →
      t.harq.length = 16 → t.lc.length = 33 → t.ShapeInv := by
    intro u g hp hb hc h1 h2
    refine ⟨?_, h1, h2, ?_⟩
    · rw [g.ports, g.build, hp, hb, hports]
    · rw [g.cur, g.build, hb, hc]
      exact hcur
  cases h with
  | quiet g => exact of_frame g.toFrame rfl rfl rfl (by rw [g.harq, hharq]) (by rw [g.lc, hlc])
  | config _ _ frame =>
    exact of_frame frame.toFrame rfl rfl rfl (by rw [frame.harq, hharq]) (by rw [frame.lc, hlc])
  | init _ _ frame => exact of_frame frame.toFrame rfl rfl rfl (by rw [frame.harq, hharq]) (by rw [frame.lc, hlc])
  | tables _ harq frame => exact of_frame frame.toFrame rfl rfl rfl (harq.length hharq) (by rw [frame.lc, hlc])
  | channels _ length _ frame => exact of_frame frame rfl rfl rfl (by rw [frame.harq, hharq]) (length.trans hlc)

theorem Frame.faultInv {s t : State} (h : Frame s t) (hs : s.FaultInv) : t.FaultInv := by
  simp only [State.FaultInv, h.halted, h.faultCode, h.faultPort, h.faultCmd]
  exact hs

theorem Effect.faultInv {s t : State} (h : Effect s t) (hs : s.FaultInv) : t.FaultInv := by
  cases h with
  | quiet g => exact g.toFrame.faultInv hs
  | config _ _ frame => exact frame.toFrame.faultInv hs
  | init _ _ frame => exact frame.toFrame.faultInv hs
  | tables _ _ frame => exact frame.toFrame.faultInv hs
  | channels _ _ _ frame => exact frame.faultInv hs

theorem State.raiseFault_faultInv (s : State) (c : FaultCode) : (s.raiseFault c).FaultInv :=
  ⟨fun hh => (by cases hh), fun _ => ⟨c, rfl⟩⟩

theorem Frame.configInv {s t : State} (h : Frame s t) (hs : s.ConfigInv) : t.ConfigInv := by
  simp only [State.ConfigInv, h.cfgValid, h.cfg, h.initDone]
  exact hs

theorem Effect.configInv {s t : State} (h : Effect s t) (hs : s.ConfigInv) : t.ConfigInv := by
  cases h with
  | quiet g => exact g.toFrame.configInv hs
  | config legal _ frame => exact frame.toFrame.configInv ⟨fun _ => legal, fun _ => rfl⟩
  | init valid _ frame => exact frame.toFrame.configInv ⟨hs.1, fun _ => valid⟩
  | tables _ _ frame => exact frame.toFrame.configInv hs
  | channels _ _ _ frame => exact frame.configInv hs

theorem Frame.harqInv {s t : State} (h : Frame s t) (hs : s.HarqInv) : t.HarqInv := by
  simp only [State.HarqInv, h.harq]
  exact hs

theorem Effect.harqInv {s t : State} (h : Effect s t) (hs : s.HarqInv) : t.HarqInv := by
  cases h with
  | quiet g => exact g.toFrame.harqInv hs
  | config _ _ frame => exact frame.toFrame.harqInv hs
  | init _ _ frame => exact frame.toFrame.harqInv hs
  | tables _ harq frame => exact harq.sound hs
  | channels _ _ _ frame => exact frame.harqInv hs

theorem State.afterReset_shapeInv (b : Build) (m : List Host.Cell) (i : List Input) (r : List RlcAnswer) (n : Nat) :
    (State.afterReset b m i r n).ShapeInv :=
  ⟨List.length_replicate, List.length_replicate, List.length_replicate, Nat.succ_pos _⟩

theorem State.afterReset_harqInv (b : Build) (m : List Host.Cell) (i : List Input) (r : List RlcAnswer) (n : Nat) :
    (State.afterReset b m i r n).HarqInv := by
  intro h hh
  rw [List.eq_of_mem_replicate hh]
  exact HarqEntry.afterReset_ok b

/-- Settles O21, each of the four invariants by itself. -/
theorem stepKeepsRegistersLegal : Obligations.StepKeepsRegistersLegal := by
  intro s t h
  refine ⟨fun hs => ?_, fun hs => ?_, fun hs => ?_, fun hs => ?_⟩
  · exact step_keeps (P := State.ShapeInv) (fun _ => State.afterReset_shapeInv ..)
      (fun _ _ g => (Effect.quiet g).shapeInv)
      (fun _ _ _ _ _ hp ⟨hports, hharq, hlc, _⟩ => ⟨hports, hharq, hlc, hp⟩)
      (fun _ _ ⟨hports, hharq, hlc, hcur⟩ => ⟨(List.length_modify ..).trans hports, hharq, hlc, hcur⟩)
      (fun _ _ _ g => g.shapeInv) (fun _ _ hs => hs) h hs
  · exact step_keeps (P := State.FaultInv) (fun _ => ⟨fun _ => ⟨rfl, rfl, rfl⟩, fun hh => (by cases hh)⟩)
      (fun _ _ g => g.toFrame.faultInv) (fun _ _ _ _ _ _ hs => hs) (fun s c _ => s.raiseFault_faultInv c)
      (fun _ _ _ g => g.faultInv) (fun _ _ hs => hs) h hs
  · exact step_keeps (P := State.ConfigInv) (fun _ => ⟨fun hv => (by cases hv), fun hi => (by cases hi)⟩)
      (fun _ _ g => g.toFrame.configInv) (fun _ _ _ _ _ _ hs => hs) (fun _ _ hs => hs)
      (fun _ _ _ g => g.configInv) (fun _ _ hs => hs) h hs
  · exact step_keeps (P := State.HarqInv) (fun _ => State.afterReset_harqInv _ _ _ _ _)
      (fun _ _ g => g.toFrame.harqInv) (fun _ _ _ _ _ _ hs => hs) (fun _ _ hs => hs)
      (fun _ _ _ g => g.harqInv) (fun _ _ hs => hs) h hs

/-! ### Reset (spec/10_state.md R119) -/

/-- Settles O25. -/
theorem resetMeetsEveryInvariant : Obligations.ResetMeetsEveryInvariant :=
  ⟨State.afterReset_shapeInv .., ⟨fun _ => rfl, fun hi => (by cases hi)⟩, State.reset.resetInput_lcInv,
    ⟨rfl, fun c hc => (by cases hc)⟩, ⟨fun hv => (by cases hv), fun hi => (by cases hi)⟩,
    State.afterReset_harqInv _ _ _ _ _, ⟨fun _ => ⟨rfl, rfl, rfl⟩, fun hh => (by cases hh)⟩, fun i hi => (by cases hi)⟩

/-- CFG after reset is what a CFG descriptor of 128 zero bytes holds: every field 0. -/
theorem cfgAfterReset_eq_zeroBytes : CfgRegs.afterReset = cfgOfBytes (List.replicate 128 0) := by decide +kernel

/-- Settles O11. -/
theorem resetLeavesResetValues : Obligations.ResetLeavesResetValues := by
  intro s rest h
  refine ⟨{ s with inputs := rest }.resetInput, ?_, rfl, cfgAfterReset_eq_zeroBytes, rfl, rfl, rfl, rfl, rfl, rfl,
    rfl, rfl, rfl, rfl, rfl, rfl, rfl, rfl, rfl⟩
  unfold step
  rw [h]

end Sys2Proof.Machine
end
section
/-! ### Turns and agents (spec/10_state.md R101 to R103, spec/20_memory.md R220 to R223) -/

namespace Sys2Proof.Machine

theorem step_of_take {s : State} {p : Nat} {drawn : List Host.Cell} {rest : List Input}
    (hi : s.inputs = .take p drawn :: rest) (hp : p < s.build.nPorts) :
    step s = takeTurn p drawn { s with inputs := rest } := by
  unfold step
  rw [hi]
  exact if_pos hp

theorem step_of_setArg {s : State} {p : Nat} {k : Fin 4} {v : Word} {rest : List Input}
    (hi : s.inputs = .setArg p k v :: rest) (hp : p < s.build.nPorts) :
    step s = .next ({ s with inputs := rest }.setArg p k v) := by
  unfold step
  rw [hi]
  exact if_pos hp

theorem step_of_writeCmd {s : State} {p : Nat} {w : Word} {rest : List Input}
    (hi : s.inputs = .writeCmd p w :: rest) (hp : p < s.build.nPorts) :
    step s = .next ({ s with inputs := rest }.writeCmd p w) := by
  unfold step
  rw [hi]
  exact if_pos hp

theorem step_of_pokeDmem {s : State} {p a : Nat} {b : Byte} {rest : List Input}
    (hi : s.inputs = .pokeDmem p a b :: rest) (hp : p < s.build.nPorts) (ha : a < s.build.dmemSize) :
    step s = .next ({ s with inputs := rest }.pokeDmem a b) := by
  unfold step
  rw [hi]
  exact (if_neg (not_not_intro hp)).trans (if_pos ha)

/-- A word that decodes is fetched as the command it decodes to. -/
theorem State.fetch_of_decode {s : State} {i : Instr} (h : decode s.port.cmd = .ok i) : s.fetch = .ok i := by
  unfold State.fetch
  rw [h]

theorem runCommand_of_decode {s : State} {i : Instr} (h : decode s.port.cmd = .ok i) :
    runCommand s = exec i s := by
  unfold runCommand
  rw [State.fetch_of_decode h]

/-- What a command has written by the end of its step: its write regions where it ended normally, nothing where it
halted the PTB or is held. -/
theorem stepAccesses_writes {s t : State} {i : Instr} (h : s.fetch = .ok i) :
    (stepAccesses s t).2 = if t.halted = false ∧ t.port.busy = false then (accesses s i).2 else [] := by
  unfold stepAccesses
  rw [h]
  cases t.halted <;> cases t.port.busy <;> rfl

/-- A drawn byte that the command of the turn did not write holds what it held before (R223). -/
theorem readByte_settle_turn {s t : State} {i : Instr} (h : s.fetch = .ok i) (drawn stored : List Host.Cell)
    (a : Nat) :
    readByte (settle drawn (stepAccesses s t).2 stored t.mem) a =
      if (∃ c ∈ drawn, c.1 = a) ∧
          ¬(t.halted = false ∧ t.port.busy = false ∧ inRegions (accesses s i).2 a = true)
      then readByte stored a else readByte t.mem a := by
  rw [readByte_settle, stepAccesses_writes h]
  refine if_congr (and_congr_right fun _ => ?_) rfl rfl
  by_cases hend : t.halted = false ∧ t.port.busy = false
  · rw [if_pos hend]
    simp [hend]
  · rw [if_neg hend]
    simp only [inRegions, List.any_nil, true_iff]
    exact fun hw => hend ⟨hw.1, hw.2.1⟩

/-- Settles O8. -/
theorem stepRunsDecodedCommand : Obligations.StepRunsDecodedCommand := by
  intro s p drawn rest i hi hp hh hb hdec
  have hdec' : ∀ m, decode ({ s with inputs := rest, cur := p, mem := m } : State).port.cmd = .ok i := fun _ => hdec
  rw [step_of_take hi hp]
  refine ⟨fun hwait => ?_, fun hfree => ?_⟩
  · have hs : ({ s with inputs := rest } : State).stillWaits p = true := (State.stillWaits_iff _ p).mpr hwait
    refine takeTurn_of_not_enabled ?_ drawn
    simp [State.enabled, hs]
  · have hs : ({ s with inputs := rest } : State).stillWaits p = false := by
      refine Bool.eq_false_iff.mpr fun hs => ?_
      obtain ⟨r, hr, hpr, hlock⟩ := (State.stillWaits_iff _ p).mp hs
      exact hlock (hfree r hr hpr)
    have hen : ({ s with inputs := rest } : State).enabled p = true := (State.enabled_iff _ p).mpr ⟨hh, hb, hs⟩
    have hrun : ∀ m, runCommand { s with inputs := rest, cur := p, mem := m } =
        exec i { s with inputs := rest, cur := p, mem := m } := fun m => runCommand_of_decode (hdec' m)
    refine ⟨fun hd => ?_, ?_⟩
    · subst hd
      obtain ⟨t, ht, -⟩ := exec_end i { s with inputs := rest, cur := p }
      rw [takeTurn_of_enabled hen [] ((hrun s.mem).trans ht), ht]
      rfl
    · obtain ⟨t, ht, -⟩ := exec_end i { s with inputs := rest, cur := p, mem := overlay drawn s.mem }
      refine ⟨_, t, _, ht, takeTurn_of_enabled hen drawn ((hrun _).trans ht), fun a => ⟨?_, ?_⟩⟩
      · exact readByte_overlay drawn s.mem a
      · exact readByte_settle_turn (State.fetch_of_decode (hdec' _)) drawn s.mem a

/-- An ARG write sets the register of its number and no other. -/
theorem State.setArg_eq (s : State) (p : Nat) (k : Fin 4) (v : Word) :
    s.setArg p k v =
      { s with
        ports := s.ports.modify p fun r =>
          { r with
            arg0 := if k = 0 then v else r.arg0
            arg1 := if k = 1 then v else r.arg1
            arg2 := if k = 2 then v else r.arg2
            arg3 := if k = 3 then v else r.arg3 } } := by
  fin_cases k <;> rfl

theorem State.writeCmd_of_busy {s : State} {p : Nat} (h : s.busyPort p = true) (w : Word) : s.writeCmd p w = s :=
  if_pos (.inr h)

theorem State.writeCmd_of_idle {s : State} {p : Nat} (hb : s.busyPort p = false) (hh : s.halted = false) (w : Word) :
    s.writeCmd p w = { s with ports := s.ports.modify p fun r => { r with cmd := w, busy := true } } :=
  if_neg (by simp [hb, hh])

/-- Settles O9. -/
theorem agentWritesTakeEffect : Obligations.AgentWritesTakeEffect := by
  intro s p rest hp
  refine ⟨fun w hi => ⟨fun hb => ?_, fun hb hh => ?_⟩, fun k v hi => ?_, fun a b hi ha => ?_⟩
  · exact (step_of_writeCmd hi hp).trans (congrArg _ (State.writeCmd_of_busy (s := { s with inputs := rest }) hb w))
  · exact (step_of_writeCmd hi hp).trans (congrArg _ (State.writeCmd_of_idle (s := { s with inputs := rest }) hb hh w))
  · rw [step_of_setArg hi hp, State.setArg_eq]
  · exact ⟨writeByte s.mem a b, step_of_pokeDmem hi hp ha, readByte_writeByte s.mem a b⟩

/-! ### Null results (spec/40_config_store.md R401, R420) -/

/-- A change that gives the element at its place back leaves the list alone. -/
theorem modify_eq_self {α : Type} {l : List α} {k : Nat} {f : α → α} (h : ∀ hk : k < l.length, f l[k] = l[k]) :
    l.modify k f = l := by
  refine List.ext_getElem (List.length_modify ..) fun i _ hi => ?_
  rw [List.getElem_modify]
  split
  · rename_i hki
    subst hki
    exact h hi
  · rfl

/-- UL_LOCK_GET on a slot that is no uplink slot (R401). -/
theorem ulLockGetBody_not_ul {s : State} {ptype frame slot : Nat} (hi : s.initDone = true) (hs : slot < s.spf)
    (ht : 1 ≤ ptype ∧ ptype ≤ 4) (hu : s.ulSlot slot = false) :
    ulLockGetBody ptype frame slot s =
      .ok (((s.log errNotUlSlot frame slot).setRes0 nullHandle).ret errNotUlSlot) := by
  unfold ulLockGetBody
  rw [require_pos hi, require_pos hs, require_pos ht, if_pos hu]
  rfl

/-- UL_ITER_GET on a slot that is no uplink slot (R420). -/
theorem ulIterGetBody_not_ul {s : State} {slot : Nat} (hi : s.initDone = true) (hs : slot < s.spf)
    (hu : s.ulSlot slot = false) :
    ulIterGetBody slot s = .ok (((s.setRes0 nullHandle).setRes1 0).ret errNotUlSlot) := by
  unfold ulIterGetBody
  rw [require_pos hi, require_pos hs, if_pos hu]
  rfl

/-- UL_LOCK_GET on a FREE uplink slot goes on with the lock taken (R401, R402). -/
theorem ulLockGetBody_free {s : State} {ptype frame slot : Nat} (hi : s.initDone = true) (hs : slot < s.spf)
    (ht : 1 ≤ ptype ∧ ptype ≤ 4) (hu : s.ulSlot slot = true) (hl : (s.slotRec slot).lock = none) :
    ulLockGetBody ptype frame slot s =
      .ok (lockGetGranted ptype frame slot (s.modSlot slot fun r => { r with lock := some s.cur })) := by
  have hacq : s.acquire slot = .ok (s.modSlot slot fun r => { r with lock := some s.cur }) := by
    unfold State.acquire
    rw [hl]
  unfold ulLockGetBody
  rw [require_pos hi, require_pos hs, require_pos ht, if_neg (by simp [hu]), hacq]
  rfl

theorem State.modSlot_eq_self {s : State} {k : Nat} {f : SlotRec → SlotRec} (h : f (s.slotRec k) = s.slotRec k) :
    s.modSlot k f = s := by
  have hstore : s.store.modify k f = s.store := modify_eq_self fun hk => by
    rwa [State.slotRec, List.getD_eq_getElem _ _ hk] at h
  unfold State.modSlot
  rw [hstore]

theorem State.modSlot_modSlot (s : State) (k : Nat) (f g : SlotRec → SlotRec) :
    (s.modSlot k f).modSlot k g = s.modSlot k (g ∘ f) := by
  unfold State.modSlot
  rw [List.modify_modify_eq]

/-- A slot that carries the tag asked for is left alone (R401). -/
theorem State.retag_of_same_tag {s : State} {frame k : Nat} (hf : (s.slotRec k).tagFrame = frame)
    (ht : (s.slotRec k).tagSlot = k) : s.retag frame k = s := by
  have hstale : s.staleTag frame k = false := by simp [State.staleTag, hf, ht]
  have htag : ∀ r : SlotRec, r.tagFrame = frame → r.tagSlot = k → { r with tagFrame := frame, tagSlot := k } = r := by
    rintro ⟨⟩ rfl rfl
    rfl
  unfold State.retag
  rw [if_neg (by simp [hstale]), State.modSlot_eq_self (htag _ hf ht)]

/-- Taking a FREE lock and giving it back leaves the store alone. -/
theorem State.release_lock {s : State} {k : Nat} (hl : (s.slotRec k).lock = none) (p : Nat) :
    (s.modSlot k fun r => { r with lock := some p }).release k = s := by
  have hfree : ∀ r : SlotRec, r.lock = none → { r with lock := none } = r := by
    rintro ⟨⟩ rfl
    rfl
  exact (State.modSlot_modSlot ..).trans (State.modSlot_eq_self (hfree _ hl))

/-- On a slot that is full under the tag of the same frame, UL_LOCK_GET gives the lock back and leaves the store as
it was before it took the lock (R401). -/
theorem lockGetGranted_full {s : State} {ptype frame k : Nat} (hk : k < s.store.length)
    (hl : (s.slotRec k).lock = none) (hf : (s.slotRec k).tagFrame = frame) (ht : (s.slotRec k).tagSlot = k)
    (hn : s.build.nPdu ≤ (s.slotRec k).numberPdus) :
    lockGetGranted ptype frame k (s.modSlot k fun r => { r with lock := some s.cur }) =
      ((s.log errCapacity frame k).setRes0 nullHandle).ret errCapacity := by
  have hback := State.release_lock (s := s.log errCapacity frame k) hl s.cur
  have hlocked : (s.modSlot k fun r => { r with lock := some s.cur }).slotRec k =
      { s.slotRec k with lock := some s.cur } := by
    rw [State.modSlot_slotRec, if_pos ⟨rfl, hk⟩]
  generalize ht' : (s.modSlot k fun r => { r with lock := some s.cur }) = t at hlocked
  have hretag : t.retag frame k = t := State.retag_of_same_tag (by rw [hlocked, ← hf]) (by rw [hlocked]; exact ht)
  have hfull : t.build.nPdu ≤ (t.slotRec k).numberPdus := by
    rw [hlocked, ← ht']
    exact hn
  unfold lockGetGranted
  rw [hretag]
  dsimp only
  rw [if_pos hfull, ← ht', ← hback]
  rfl

/-- Settles O29. -/
theorem acquiringCommandsReturnNull : Obligations.AcquiringCommandsReturnNull := by
  intro s ptype frame slot hi hs
  refine ⟨fun hu h1 h4 => ?_, fun hu => ?_, fun hu hlen h1 h4 hl hf ht hn => ?_⟩
  · rw [exec_eq_finish, commandBody, ulLockGetBody_not_ul (s := s.unwait) hi hs ⟨h1, h4⟩ hu, finish_ok]
    simp only [State.ret, State.setRes0, State.modPort, State.log, List.modify_modify_eq]
    rfl
  · rw [exec_eq_finish, commandBody, ulIterGetBody_not_ul (s := s.unwait) hi hs hu, finish_ok]
    simp only [State.ret, State.setRes0, State.setRes1, State.modPort, List.modify_modify_eq]
    rfl
  · have hrec := s.unwait_slotRec hlen
    have hbody := ulLockGetBody_free (s := s.unwait) (frame := frame) hi hs ⟨h1, h4⟩ hu (by rw [hrec]; exact hl)
    rw [exec_eq_finish, commandBody, hbody, finish_ok, lockGetGranted_full]
    · simp only [State.ret, State.setRes0, State.modPort, State.log, List.modify_modify_eq]
      rfl
    · simpa using hlen
    · rw [hrec]; exact hl
    · rw [hrec]; exact hf
    · rw [hrec]; exact ht
    · rw [hrec]; exact hn

end Sys2Proof.Machine
end
section
/-! ### Legal values (spec/10_state.md R108, spec/42_pusch_builder.md R639, spec/43_re_mapper.md R701,
spec/44_precoding_transform.md R821) -/

namespace Sys2Proof.Machine

/-! #### Bit vectors as sets of numbers -/

section
variable {w : Nat}

theorem toNat_lt_two_pow_iff (v : BitVec w) (n : Nat) : v.toNat < 2 ^ n ↔ ∀ k, v.getLsbD k = true → k < n := by
  simp only [← BitVec.testBit_toNat]
  constructor
  · intro h k hk
    by_contra hn
    have hlt : v.toNat < 2 ^ k := h.trans_le (Nat.pow_le_pow_right (by decide) (not_lt.mp hn))
    rw [Nat.testBit_eq_false_of_lt hlt] at hk
    cases hk
  · intro h
    refine Nat.lt_pow_two_of_testBit _ fun k hk => ?_
    exact Bool.eq_false_iff.mpr fun hb => absurd (h k hb) (not_lt.mpr hk)

theorem ne_zero_iff_exists_getLsbD (v : BitVec w) : v ≠ 0 ↔ ∃ l, v.getLsbD l = true := by
  constructor
  · intro h
    by_contra hn
    push Not at hn
    exact h (BitVec.eq_of_getLsbD_eq fun i _ => by simpa using hn i)
  · rintro ⟨l, hl⟩ rfl
    simp at hl

theorem and_eq_zero_iff_getLsbD (u v : BitVec w) :
    u &&& v = 0 ↔ ∀ l, u.getLsbD l = true → ¬v.getLsbD l = true := by
  constructor
  · intro h l hu hv
    have hl : (u &&& v).getLsbD l = false := by simp [h]
    simp [hu, hv] at hl
  · intro h
    refine BitVec.eq_of_getLsbD_eq fun i _ => ?_
    cases hu : u.getLsbD i with
    | false => simp [hu]
    | true => simp [hu, h i hu]

theorem mem_setBits (v : BitVec w) (l : Nat) : l ∈ setBits v ↔ v.getLsbD l = true := by
  simp only [setBits, List.mem_filter, List.mem_range, and_iff_right_iff_imp]
  exact BitVec.lt_of_getLsbD

theorem setBits_pairwise (v : BitVec w) : (setBits v).Pairwise (· < ·) := List.pairwise_lt_range.filter _

theorem all_setBits_iff (v : BitVec w) (f : Nat → Bool) :
    (setBits v).all f = true ↔ ∀ l, v.getLsbD l = true → f l = true := by
  simp only [List.all_eq_true, mem_setBits]

end

/-! #### Double-symbol DMRS: a set of symbols made of pairs (R701 check 6) -/

/-- The symbols of the pairs whose first symbols are given. -/
def pairSymbols (firsts : List Nat) : List Nat := firsts.flatMap fun a => [a, a + 1]

theorem mem_pairSymbols (firsts : List Nat) (l : Nat) :
    l ∈ pairSymbols firsts ↔ ∃ a ∈ firsts, l = a ∨ l = a + 1 := by
  simp [pairSymbols]

theorem pairSymbols_pairwise {firsts : List Nat} (h : firsts.Pairwise fun a b => a + 1 < b) :
    (pairSymbols firsts).Pairwise (· < ·) := by
  induction firsts with
  | nil => exact .nil
  | cons a rest ih =>
    obtain ⟨ha, hrest⟩ := List.pairwise_cons.mp h
    have hlt : ∀ l ∈ pairSymbols rest, a + 1 < l := fun l hl => by
      obtain ⟨b, hb, hlb⟩ := (mem_pairSymbols rest l).mp hl
      have := ha b hb
      omega
    change (a :: (a + 1) :: pairSymbols rest).Pairwise (· < ·)
    refine .cons (fun l hl => ?_) (.cons hlt (ih hrest))
    rcases List.mem_cons.mp hl with rfl | hl
    · exact Nat.lt_succ_self a
    · exact (Nat.lt_succ_self a).trans (hlt l hl)

theorem pairsOk_pairSymbols (firsts : List Nat) : pairsOk (pairSymbols firsts) = true := by
  induction firsts with
  | nil => rfl
  | cons a rest ih =>
    change (a + 1 == a + 1 && pairsOk (pairSymbols rest)) = true
    rw [ih]
    simp

theorem exists_pairSymbols_of_pairsOk (symbols : List Nat) (hp : symbols.Pairwise (· < ·))
    (h : pairsOk symbols = true) : ∃ firsts, firsts.Pairwise (fun a b => a + 1 < b) ∧ symbols = pairSymbols firsts := by
  induction symbols using pairsOk.induct with
  | case1 => exact ⟨[], .nil, rfl⟩
  | case2 a => cases h
  | case3 a b rest ih =>
    simp only [pairsOk, Bool.and_eq_true, beq_iff_eq] at h
    obtain ⟨rfl, hrest⟩ := h
    obtain ⟨-, hp'⟩ := List.pairwise_cons.mp hp
    obtain ⟨hlt, hp''⟩ := List.pairwise_cons.mp hp'
    obtain ⟨firsts, hf, rfl⟩ := ih hp'' hrest
    refine ⟨a :: firsts, .cons (fun b hb => hlt b ?_) hf, rfl⟩
    exact (mem_pairSymbols firsts b).mpr ⟨b, hb, .inl rfl⟩

theorem pairsOk_iff {symbols : List Nat} (hp : symbols.Pairwise (· < ·)) :
    pairsOk symbols = true ↔ ∃ firsts : List Nat, firsts.Pairwise (fun a b => a + 1 < b) ∧
      ∀ l, l ∈ symbols ↔ ∃ a ∈ firsts, l = a ∨ l = a + 1 := by
  constructor
  · intro h
    obtain ⟨firsts, hf, rfl⟩ := exists_pairSymbols_of_pairsOk symbols hp h
    exact ⟨firsts, hf, mem_pairSymbols firsts⟩
  · rintro ⟨firsts, hf, hmem⟩
    have heq : symbols = pairSymbols firsts :=
      hp.eq_of_mem_iff (pairSymbols_pairwise hf) fun l => (hmem l).trans (mem_pairSymbols firsts l).symm
    rw [heq]
    exact pairsOk_pairSymbols firsts

/-! #### The configuration (R108, R639) -/

theorem slivDecode_slivEncode : ∀ start len : Fin 15, 1 ≤ len.val ∧ start.val + len.val ≤ 14 →
    slivDecode (slivEncode start.val len.val) = some (start.val, len.val) := by decide +kernel

theorem slivDecode_eq_some_iff (sliv start len : Nat) :
    slivDecode sliv = some (start, len) ↔ 1 ≤ len ∧ start + len ≤ 14 ∧ sliv = slivEncode start len := by
  constructor
  · intro h
    have hcheck := List.find?_some h
    simp only [decide_eq_true_eq] at hcheck
    obtain ⟨h1, h14, henc⟩ := hcheck
    exact ⟨h1, h14, henc.symm⟩
  · rintro ⟨h1, h14, rfl⟩
    exact slivDecode_slivEncode ⟨start, by omega⟩ ⟨len, by omega⟩ ⟨h1, h14⟩

theorem TdraRow.legal_iff (r : TdraRow) :
    r.legal = true ↔ r.k2 ≤ 32 ∧ r.mappingType ≤ 1 ∧ ∃ start len,
      1 ≤ len ∧ start + len ≤ 14 ∧ (r.mappingType = 0 → start = 0 ∧ 4 ≤ len) ∧ r.sliv = slivEncode start len := by
  unfold TdraRow.legal
  cases hd : slivDecode r.sliv with
  | none =>
    simp only [Bool.and_false, Bool.false_eq_true, false_iff]
    rintro ⟨-, -, start, len, h1, h14, -, henc⟩
    rw [(slivDecode_eq_some_iff _ start len).mpr ⟨h1, h14, henc⟩] at hd
    cases hd
  | some x =>
    obtain ⟨start, len⟩ := x
    obtain ⟨h1, h14, henc⟩ := (slivDecode_eq_some_iff _ _ _).mp hd
    simp only [Bool.and_eq_true, Bool.or_eq_true, decide_eq_true_eq, beq_iff_eq]
    refine and_congr_right fun _ => ⟨fun h => ⟨by omega, start, len, h1, h14, by omega, henc⟩, ?_⟩
    rintro ⟨hm, start', len', h1', h14', hfit, henc'⟩
    have heq := (slivDecode_eq_some_iff _ start' len').mpr ⟨h1', h14', henc'⟩
    rw [hd] at heq
    cases heq
    omega

theorem all_take_iff {α : Type} (l : List α) (n : Nat) (f : α → Bool) :
    (l.take n).all f = true ↔ ∀ i r, i < n → l[i]? = some r → f r = true := by
  simp only [List.all_eq_true, List.mem_iff_getElem?, List.getElem?_take]
  constructor
  · intro h i r hi hr
    exact h r ⟨i, by rw [if_pos hi, hr]⟩
  · rintro h r ⟨i, hr⟩
    split at hr
    · exact h i r ‹_› hr
    · cases hr

theorem CfgRegs.timeLegal_iff (c : CfgRegs) :
    c.timeLegal = true ↔
      c.mcsTable ≤ 2 ∧ c.mcsTableTp ≤ 1 ∧ c.msg3Delta ≤ 15 ∧ 1 ≤ c.nTdra ∧ c.nTdra ≤ 16 ∧
      (∀ k, c.ulSlotMask.getLsbD k = true → k < 10 * 2 ^ c.mu) ∧
      ∀ i r, i < c.nTdra → c.tdra[i]? = some r → r.legal = true := by
  simp only [CfgRegs.timeLegal, Bool.and_eq_true, decide_eq_true_eq, all_take_iff]
  rw [toNat_lt_two_pow_iff, CfgRegs.spf]
  tauto

/-- The values of R108. -/
theorem CfgRegs.legal_iff (c : CfgRegs) : c.legal = true ↔
    c.mu ≤ 4 ∧ c.duplex ≤ 1 ∧ 1 ≤ c.nRbCarrier ∧ c.nRbCarrier ≤ 275 ∧ 12 * c.nRbCarrier ≤ c.fftSize ∧
    c.fftSize ≤ 4096 ∧ c.firstCarrierOffset < c.fftSize ∧ 1 ≤ c.bwpSize ∧ c.bwpStart + c.bwpSize ≤ c.nRbCarrier ∧
    c.nAnt ∈ [1, 2, 4] ∧ 1 ≤ c.maxRank ∧ c.maxRank ≤ 4 ∧ c.maxRank ≤ c.nAnt ∧ c.tpEnabled ≤ 1 ∧
    c.msg3TpEnabled ≤ 1 ∧ c.dmrsType ∈ [1, 2] ∧ c.dmrsMaxLength ∈ [1, 2] ∧ c.dmrsAddPos ≤ 3 ∧
    c.msg3DmrsAddPos ≤ 3 ∧ c.dmrsTypeAPos ∈ [2, 3] ∧ c.ptrsEnabled ≤ 1 ∧
    (c.ptrsMcs1 = 255 ∧ c.ptrsMcs2 = 255 ∧ c.ptrsMcs3 = 255 ∨
      c.ptrsMcs1 ≤ c.ptrsMcs2 ∧ c.ptrsMcs2 ≤ c.ptrsMcs3 ∧ c.ptrsMcs3 ≤ 31) ∧
    (c.ptrsNrb0 = 0xFFFF ∧ c.ptrsNrb1 = 0xFFFF ∨ 1 ≤ c.ptrsNrb0 ∧ c.ptrsNrb0 ≤ c.ptrsNrb1 ∧ c.ptrsNrb1 ≤ 275) ∧
    c.ptrsReOffset ≤ 3 ∧ c.mcsTable ≤ 2 ∧ c.mcsTableTp ≤ 1 ∧ c.msg3Delta ≤ 15 ∧ 1 ≤ c.nTdra ∧ c.nTdra ≤ 16 ∧
    (∀ k, c.ulSlotMask.getLsbD k = true → k < 10 * 2 ^ c.mu) ∧
    ∀ i r, i < c.nTdra → c.tdra[i]? = some r → r.legal = true := by
  simp only [CfgRegs.legal, CfgRegs.carrierLegal, CfgRegs.antennaLegal, CfgRegs.ptrsLegal, CfgRegs.timeLegal_iff,
    Bool.and_eq_true, decide_eq_true_eq, le_min_iff, and_assoc, List.mem_cons, List.not_mem_nil, or_false]
  iterate 21 refine and_congr_right fun _ => ?_
  constructor
  · rintro ⟨hre, hmcs, hnrb, htime⟩
    exact ⟨hmcs, hnrb, hre, htime⟩
  · rintro ⟨hmcs, hnrb, hre, htime⟩
    exact ⟨hre, hmcs, hnrb, htime⟩

/-! #### Transform sizes (R821) -/

/-- No prime but 2, 3 and 5 divides `n`. -/
def OnlyPrimes235 (n : Nat) : Prop := ∀ p, p.Prime → p ∣ n → p = 2 ∨ p = 3 ∨ p = 5

theorem onlyPrimes235_of_product (a b c : Nat) : OnlyPrimes235 (2 ^ a * 3 ^ b * 5 ^ c) := by
  intro p hp h
  have eq_of_dvd_pow : ∀ {q k : Nat}, q.Prime → p ∣ q ^ k → p = q := fun hq hd =>
    (Nat.prime_dvd_prime_iff_eq hp hq).mp (hp.dvd_of_dvd_pow hd)
  rcases hp.dvd_mul.mp h with h | h
  · rcases hp.dvd_mul.mp h with h | h
    · exact .inl (eq_of_dvd_pow Nat.prime_two h)
    · exact .inr (.inl (eq_of_dvd_pow Nat.prime_three h))
  · exact .inr (.inr (eq_of_dvd_pow Nat.prime_five h))

/-- Dividing by a factor halves the bound at least and leaves the primes among 2, 3 and 5. -/
theorem OnlyPrimes235.div {n d k : Nat} (h : OnlyPrimes235 n) (h0 : 0 < n) (hn : n < 2 ^ (k + 1)) (hd : 2 ≤ d)
    (hdvd : n % d = 0) : OnlyPrimes235 (n / d) ∧ 0 < n / d ∧ n / d < 2 ^ k := by
  have hdvd' := Nat.dvd_of_mod_eq_zero hdvd
  refine ⟨fun p hp hpd => h p hp (hpd.trans (Nat.div_dvd_of_dvd hdvd')), ?_, ?_⟩
  · exact Nat.div_pos (Nat.le_of_dvd h0 hdvd') (by omega)
  · have hhalf : n / d ≤ n / 2 := Nat.div_le_div_left hd (by decide)
    rw [pow_succ] at hn
    omega

/-- Below `2 ^ (fuel + 1)` the fuel is enough to strip every factor 2, 3 and 5. -/
theorem stripTo1_of_onlyPrimes235 (fuel n : Nat) (h : OnlyPrimes235 n) (h0 : 0 < n) (hn : n < 2 ^ (fuel + 1)) :
    stripTo1 fuel n = true := by
  induction fuel generalizing n with
  | zero =>
    obtain rfl : n = 1 := by omega
    rfl
  | succ fuel ih =>
    have strip : ∀ d, 2 ≤ d → n % d = 0 → stripTo1 fuel (n / d) = true := fun d hd hdvd => by
      obtain ⟨hp, hpos, hlt⟩ := h.div h0 hn hd hdvd
      exact ih _ hp hpos hlt
    unfold stripTo1
    split_ifs with h1 h2 h3 h5
    · rfl
    · exact strip 2 (by decide) h2
    · exact strip 3 (by decide) h3
    · exact strip 5 (by decide) h5
    · exfalso
      rcases h n.minFac (Nat.minFac_prime h1) n.minFac_dvd with hp | hp | hp
      · exact h2 (Nat.mod_eq_zero_of_dvd (hp ▸ n.minFac_dvd))
      · exact h3 (Nat.mod_eq_zero_of_dvd (hp ▸ n.minFac_dvd))
      · exact h5 (Nat.mod_eq_zero_of_dvd (hp ▸ n.minFac_dvd))

theorem exists_product_of_stripTo1 (fuel n : Nat) (h : stripTo1 fuel n = true) :
    ∃ a b c, n = 2 ^ a * 3 ^ b * 5 ^ c := by
  induction fuel generalizing n with
  | zero => exact ⟨0, 0, 0, by simpa [stripTo1] using h⟩
  | succ fuel ih =>
    have back : ∀ {d m : Nat}, n % d = 0 → n / d = m → n = d * m := fun hd hm =>
      hm ▸ (Nat.mul_div_cancel' (Nat.dvd_of_mod_eq_zero hd)).symm
    unfold stripTo1 at h
    split_ifs at h with h1 h2 h3 h5
    · exact ⟨0, 0, 0, h1⟩
    · obtain ⟨a, b, c, hm⟩ := ih _ h
      exact ⟨a + 1, b, c, (back h2 hm).trans (by ring)⟩
    · obtain ⟨a, b, c, hm⟩ := ih _ h
      exact ⟨a, b + 1, c, (back h3 hm).trans (by ring)⟩
    · obtain ⟨a, b, c, hm⟩ := ih _ h
      exact ⟨a, b, c + 1, (back h5 hm).trans (by ring)⟩

theorem smooth235_iff {n : Nat} (hn : n < 2 ^ 33) : smooth235 n = true ↔ ∃ a b c, n = 2 ^ a * 3 ^ b * 5 ^ c := by
  simp only [smooth235, Bool.and_eq_true, decide_eq_true_eq]
  constructor
  · rintro ⟨-, h⟩
    exact exists_product_of_stripTo1 32 n h
  · rintro ⟨a, b, c, rfl⟩
    exact ⟨by positivity, stripTo1_of_onlyPrimes235 32 _ (onlyPrimes235_of_product a b c) (by positivity) hn⟩

/-! #### The PUSCH PDU (R701) -/

theorem Pdu.allocLegal_iff (c : CfgRegs) (p : Pdu) : p.allocLegal c = true ↔
    (p.reserved = 0 ∧ (∀ k, 4 ≤ k → p.pduBitMap.getLsbD k = false) ∧ p.pduBitMap.getLsbD 0 = true ∧
      p.transformPrecoding = if p.pduBitMap.getLsbD 3 then 1 else 0) ∧
    (1 ≤ p.bwpSize ∧ p.bwpStart + p.bwpSize ≤ c.nRbCarrier ∧ 1 ≤ p.rbSize ∧ p.rbStart + p.rbSize ≤ p.bwpSize) ∧
    (1 ≤ p.nrOfSymbols ∧ p.startSymbol + p.nrOfSymbols ≤ 14) := by
  have hmap : p.pduBitMap.toNat < 16 ↔ ∀ k, 4 ≤ k → p.pduBitMap.getLsbD k = false := by
    refine (toNat_lt_two_pow_iff _ 4).trans (forall_congr' fun k => ?_)
    rw [← not_lt, ← Bool.not_eq_true]
    exact not_imp_not.symm
  have htp : (p.transformPrecoding ≤ 1 ∧ (p.hasDftSOfdm = true ↔ p.transformPrecoding = 1)) ↔
      p.transformPrecoding = if p.pduBitMap.getLsbD 3 then 1 else 0 := by
    unfold Pdu.hasDftSOfdm
    cases p.pduBitMap.getLsbD 3 <;> simp <;> omega
  rw [Pdu.allocLegal, decide_eq_true_eq]
  simp only [hmap, ← htp, Pdu.hasData, and_assoc]

theorem Pdu.inAlloc_iff (p : Pdu) (l : Nat) :
    p.inAlloc l = true ↔ p.startSymbol ≤ l ∧ l < p.startSymbol + p.nrOfSymbols := by
  simp [Pdu.inAlloc]

theorem Pdu.dmrsLegal_iff {p : Pdu} (halloc : p.startSymbol + p.nrOfSymbols ≤ 14) : p.dmrsLegal = true ↔
    (1 ≤ p.nLayers ∧ p.nLayers ≤ 4 ∧ p.dmrsConfigType ∈ [1, 2] ∧ 1 ≤ p.numDmrsCdmGrpsNoData ∧
      p.numDmrsCdmGrpsNoData ≤ if p.dmrsConfigType = 1 then 2 else 3) ∧
    ((List.range 16).countP (fun q => p.dmrsPorts.getLsbD q) = p.nLayers ∧
      ∀ q, p.dmrsPorts.getLsbD q = true → q < (if p.dmrsConfigType = 1 then 8 else 12) ∧
        (if p.dmrsConfigType = 1 then q / 2 % 2 else q / 2 % 3) < p.numDmrsCdmGrpsNoData) ∧
    ((∃ l, p.ulDmrsSymbPos.getLsbD l = true) ∧
      (∀ l, p.ulDmrsSymbPos.getLsbD l = true →
        l < 14 ∧ p.startSymbol ≤ l ∧ l < p.startSymbol + p.nrOfSymbols) ∧ p.dmrsDouble ≤ 1 ∧
      (p.dmrsDouble = 1 → ∃ firsts : List Nat, firsts.Pairwise (fun a b => a + 1 < b) ∧
        ∀ l, p.ulDmrsSymbPos.getLsbD l = true ↔ ∃ a ∈ firsts, l = a ∨ l = a + 1)) := by
  have hpairs := pairsOk_iff (setBits_pairwise p.ulDmrsSymbPos)
  simp only [mem_setBits] at hpairs
  have hdouble : p.dmrsDouble ≤ 1 → ((p.dmrsDouble = 0 ∨ pairsOk (setBits p.ulDmrsSymbPos) = true) ↔
      (p.dmrsDouble = 1 → pairsOk (setBits p.ulDmrsSymbPos) = true)) := fun h1 => by
    rcases Nat.le_one_iff_eq_zero_or_eq_one.mp h1 with h | h <;> simp [h]
  simp only [Pdu.dmrsLegal, Bool.and_eq_true, Bool.or_eq_true, beq_iff_eq, decide_eq_true_eq, all_setBits_iff,
    Pdu.inAlloc_iff, toNat_lt_two_pow_iff, ne_zero_iff_exists_getLsbD, List.mem_cons, List.not_mem_nil, or_false]
  rw [← hpairs]
  constructor
  · rintro ⟨⟨⟨⟨hl1, hl4, htype, hcdm1, hcdm, hcount, hd1, -, hex⟩, hports⟩, hin⟩, hd⟩
    refine ⟨⟨hl1, hl4, htype, hcdm1, ?_⟩, ⟨hcount, fun q hq => ?_⟩, hex, fun l hl => ?_, hd1, (hdouble hd1).mp hd⟩
    · split_ifs <;> omega
    · obtain ⟨hq1, hq2⟩ := hports q hq
      exact ⟨by split_ifs <;> omega, hq2⟩
    · have := hin l hl
      omega
  · rintro ⟨⟨hl1, hl4, htype, hcdm1, hcdm⟩, ⟨hcount, hports⟩, hex, hin, hd1, hd⟩
    refine ⟨⟨⟨⟨hl1, hl4, htype, hcdm1, ?_, hcount, hd1, fun l hl => (hin l hl).1, hex⟩, fun q hq => ?_⟩,
      fun l hl => (hin l hl).2⟩, (hdouble hd1).mpr hd⟩
    · split_ifs at hcdm <;> omega
    · obtain ⟨hq1, hq2⟩ := hports q hq
      exact ⟨by split_ifs at hq1 <;> omega, hq2⟩

theorem Pdu.ptrsLegal_iff (p : Pdu) : p.ptrsLegal = true ↔
    p.transformPrecoding = 0 ∧ p.ptrsK ∈ [2, 4] ∧ p.ptrsL ∈ [1, 2, 4] ∧ p.ptrsReOffset ≤ 3 ∧
    p.ptrsLayer < p.nLayers ∧ (∃ l, p.ptrsSymbPos.getLsbD l = true) ∧
    ∀ l, p.ptrsSymbPos.getLsbD l = true →
      (p.startSymbol ≤ l ∧ l < p.startSymbol + p.nrOfSymbols) ∧ ¬p.ulDmrsSymbPos.getLsbD l = true := by
  simp only [Pdu.ptrsLegal, Bool.and_eq_true, decide_eq_true_eq, all_setBits_iff, Pdu.inAlloc_iff,
    ne_zero_iff_exists_getLsbD, and_eq_zero_iff_getLsbD, List.mem_cons, List.not_mem_nil, or_false, imp_and,
    forall_and, and_assoc]
  iterate 6 refine and_congr_right fun _ => ?_
  constructor
  · rintro ⟨hno, hlo, hhi⟩
    exact ⟨hlo, hhi, hno⟩
  · rintro ⟨hlo, hhi, hno⟩
    exact ⟨hno, hlo, hhi⟩

theorem Pdu.legal_iff (c : CfgRegs) (p : Pdu) : p.legal c = true ↔
    p.allocLegal c = true ∧ p.dmrsLegal = true ∧ (p.pduBitMap.getLsbD 2 = true → p.ptrsLegal = true) ∧
    (p.transformPrecoding = 1 → p.dmrsConfigType = 1 ∧ p.numDmrsCdmGrpsNoData = 2 ∧ p.nLayers = 1) := by
  have hptrs : (!p.hasPtrs || p.ptrsLegal) = true ↔ (p.pduBitMap.getLsbD 2 = true → p.ptrsLegal = true) := by
    unfold Pdu.hasPtrs
    cases p.pduBitMap.getLsbD 2 <;> simp
  simp only [Pdu.legal, Bool.and_eq_true, hptrs, Pdu.tpLegal, decide_eq_true_eq, and_assoc]

/-- Settles O20: each check of the model is the condition its rule states. -/
theorem legalValuesAreTheListed : Obligations.LegalValuesAreTheListed := by
  refine ⟨fun c => ?_, fun c p => ?_, fun n hn => smooth235_iff (hn.trans (by decide))⟩
  · rw [CfgRegs.legal_iff]
    simp only [TdraRow.legal_iff]
    rfl
  · intro dmrs inside
    rw [Pdu.legal_iff]
    constructor
    · rintro ⟨halloc, hdmrs, hptrs, htp⟩
      obtain ⟨hmap, hfreq, htime⟩ := (p.allocLegal_iff c).mp halloc
      obtain ⟨hlayers, hports, hsymbols⟩ := (Pdu.dmrsLegal_iff htime.2).mp hdmrs
      exact ⟨hmap, hfreq, htime, hlayers, hports, hsymbols, fun h => p.ptrsLegal_iff.mp (hptrs h), htp⟩
    · rintro ⟨hmap, hfreq, htime, hlayers, hports, hsymbols, hptrs, htp⟩
      exact ⟨(p.allocLegal_iff c).mpr ⟨hmap, hfreq, htime⟩,
        (Pdu.dmrsLegal_iff htime.2).mpr ⟨hlayers, hports, hsymbols⟩, fun h => p.ptrsLegal_iff.mpr (hptrs h), htp⟩

end Sys2Proof.Machine
end
section
/-! The faults of a command, said once: a body raises the fault of the first of its checks that fails
(spec/60_exceptions.md R1010, R1012). -/

namespace Sys2Proof.Machine

/-! ### How a body ends in a fault -/

/-- A body, or a check of one, ends in the fault `c`. -/
def Raises {α : Type} (c : FaultCode) (x : Except Stop α) : Prop := x = .error (.fault c)

theorem exec_of_raises {i : Instr} {s : State} {c : FaultCode} (h : Raises c (commandBody s i)) :
    exec i s = .next (s.raiseFault c) := by
  have hbody : commandBody s i = .error (.fault c) := h
  rw [exec_eq_finish, hbody, finish_fault]

section
variable {α β : Type} {c d : FaultCode} {s : State}

/-- A check that raises a fault ends its body. -/
theorem Raises.here {x : Except Stop α} {f : α → Except Stop β} (h : Raises c x) : Raises c (x >>= f) :=
  bind_error_iff.mpr (.inl h)

/-- Where a check passes, the rest of the body decides. -/
theorem Raises.after {x : Except Stop α} {f : α → Except Stop β} {a : α} (hx : x = .ok a) (h : Raises c (f a)) :
    Raises c (x >>= f) :=
  bind_error_iff.mpr (.inr ⟨a, hx, h⟩)

theorem Raises.require {p : Prop} [Decidable p] {f : Unit → Except Stop β} (h : ¬p) :
    Raises c (require p c >>= f) :=
  .here (require_neg h c)

theorem Raises.afterRequire {p : Prop} [Decidable p] {f : Unit → Except Stop β} (hp : p) (h : Raises c (f ())) :
    Raises c (Machine.require p d >>= f) :=
  .after (require_pos hp d) h

theorem Raises.afterRegion {a n al : Nat} {f : Unit → Except Stop β} (hr : RegionOk s a n al) (h : Raises c (f ())) :
    Raises c (checkRegion s a n al >>= f) :=
  .after (checkRegion_pos hr) h

theorem Raises.afterRegions {n al : Nat} {l : List Nat} {f : Unit → Except Stop β} (hr : ∀ a ∈ l, RegionOk s a n al)
    (h : Raises c (f ())) : Raises c (checkRegions s n al l >>= f) :=
  .after (checkRegions_ok_iff.mpr hr) h

theorem Raises.afterDesc {daddr n : Nat} {f : List Byte → Except Stop β} (hr : RegionOk s (4 * daddr) n 4)
    (h : Raises c (f (readBytes s.mem (4 * daddr) n))) : Raises c (readDesc s daddr n >>= f) :=
  .after (readDesc_pos hr) h

end

/-! ### The first bad region (spec/60_exceptions.md R1012) -/

section
variable {β : Type} {s : State} {c : FaultCode} {a n al : Nat}

theorem not_firstBadRegion_nil : ¬FirstBadRegion s [] c := by
  rintro ⟨pre, a, n, al, post, hl, -⟩
  exact List.append_ne_nil_of_right_ne_nil pre (List.cons_ne_nil _ post) hl.symm

/-- The first region of a list is the bad one, or it is right and the bad one comes after it. -/
theorem FirstBadRegion.cons_cases {l : List (Nat × Nat × Nat)} (h : FirstBadRegion s ((a, n, al) :: l) c) :
    Raises c (checkRegion s a n al) ∨ RegionOk s a n al ∧ FirstBadRegion s l c := by
  obtain ⟨pre, a', n', al', post, hl, hpre, hbad⟩ := h
  cases pre with
  | nil =>
    cases hl
    refine .inl ?_
    rcases hbad with ⟨rfl, hrange⟩ | ⟨rfl, hlow, hhigh, halign⟩
    · exact checkRegion_range (by omega)
    · exact checkRegion_misaligned ⟨hlow, hhigh⟩ halign
  | cons x pre =>
    cases hl
    exact .inr ⟨hpre _ List.mem_cons_self, pre, a', n', al', post, rfl,
      fun y hy => hpre y (List.mem_cons_of_mem _ hy), hbad⟩

/-- A region check where the first bad region is its own or one of the rest of the body. -/
theorem Raises.region {l : List (Nat × Nat × Nat)} {f : Unit → Except Stop β}
    (h : FirstBadRegion s ((a, n, al) :: l) c) (hf : FirstBadRegion s l c → Raises c (f ())) :
    Raises c (checkRegion s a n al >>= f) := by
  rcases h.cons_cases with hc | ⟨hok, hl⟩
  · exact .here hc
  · exact .afterRegion hok (hf hl)

/-- A region check where the only region is bad. -/
theorem Raises.badRegion {f : Unit → Except Stop β} (h : FirstBadRegion s [(a, n, al)] c) :
    Raises c (checkRegion s a n al >>= f) :=
  .region h fun hnil => absurd hnil not_firstBadRegion_nil

theorem Raises.badDesc {daddr : Nat} {f : List Byte → Except Stop β}
    (h : FirstBadRegion s [(4 * daddr, n, 4)] c) : Raises c (readDesc s daddr n >>= f) :=
  .here (.badRegion h)

/-- The first bad region is one of a list checked together, or these are right and it comes after them. -/
theorem FirstBadRegion.append_cases {as : List Nat} {l : List (Nat × Nat × Nat)}
    (h : FirstBadRegion s (as.map (fun a => (a, n, al)) ++ l) c) :
    Raises c (checkRegions s n al as) ∨ checkRegions s n al as = .ok () ∧ FirstBadRegion s l c := by
  induction as with
  | nil => exact .inr ⟨rfl, h⟩
  | cons a rest ih =>
    rcases FirstBadRegion.cons_cases h with hc | ⟨hok, hl⟩
    · exact .inl (.here hc)
    · rcases ih hl with hc | ⟨hrest, hl⟩
      · exact .inl (.afterRegion hok hc)
      · exact .inr ⟨bind_ok_iff.mpr ⟨(), checkRegion_pos hok, hrest⟩, hl⟩

theorem Raises.regions {as : List Nat} {l : List (Nat × Nat × Nat)} {f : Unit → Except Stop β}
    (h : FirstBadRegion s (as.map (fun a => (a, n, al)) ++ l) c) (hf : FirstBadRegion s l c → Raises c (f ())) :
    Raises c (checkRegions s n al as >>= f) := by
  rcases h.append_cases with hc | ⟨hok, hl⟩
  · exact .here hc
  · exact .after hok (hf hl)

theorem raises_checkRegions {as : List Nat} (h : FirstBadRegion s (as.map fun a => (a, n, al)) c) :
    Raises c (checkRegions s n al as) := by
  rcases FirstBadRegion.append_cases (l := []) (by rwa [List.append_nil]) with hc | ⟨-, hl⟩
  · exact hc
  · exact absurd hl not_firstBadRegion_nil

end

/-! ### Operands (spec/30_encoding.md R310, R311, spec/40_config_store.md R404) -/

section
variable {s : State} {h : Nat}

theorem raises_checkHandle_null (hn : h = 0xFFFF) : Raises .fatalNull (checkHandle s h) := by
  rw [hn]
  exact checkHandle_null s

theorem raises_checkHandle_bounds (hn : h ≠ 0xFFFF) (hb : s.spf ≤ bits h 15 8 ∨ s.build.nPdu < bits h 7 0) :
    Raises .badHandle (checkHandle s h) :=
  .afterRequire hn (.require (by omega))

theorem raises_checkHandle_lock (hn : h ≠ 0xFFFF) (hk : bits h 15 8 < s.spf) (he : bits h 7 0 ≤ s.build.nPdu)
    (hl : (s.slotRec (bits h 15 8)).lock ≠ some s.cur) : Raises .lockNotHeld (checkHandle s h) :=
  .afterRequire hn (.afterRequire ⟨hk, he⟩ (.require hl))

theorem Raises.afterHandle {β : Type} {c : FaultCode} {f : Nat × Nat → Except Stop β} (hn : h ≠ 0xFFFF)
    (hk : bits h 15 8 < s.spf) (he : bits h 7 0 ≤ s.build.nPdu) (hl : (s.slotRec (bits h 15 8)).lock = some s.cur)
    (hf : Raises c (f (bits h 15 8, bits h 7 0))) : Raises c (checkHandle s h >>= f) :=
  .after (checkHandle_ok_iff.mpr ⟨hn, ⟨hk, he⟩, hl, rfl⟩) hf

end

/-- Settles O17: a descriptor's region is the first thing a command checks after its flag, and a record's region or a
slot comes after the operand that names it. -/
theorem operandFaults : Obligations.OperandFaults := by
  intro s
  refine ⟨fun i daddr n c hi hp hbad => exec_of_raises ?_, fun i index n top hi hd => ⟨fun htop => exec_of_raises ?_,
    fun c htop hbad => exec_of_raises ?_⟩, fun i h c hi hd hn hk he hl hbad => exec_of_raises ?_,
    fun hd ptype frame slot => ⟨fun hs => ⟨exec_of_raises ?_, exec_of_raises ?_⟩, fun hs ht => exec_of_raises ?_⟩⟩
  · rcases hi with ⟨rfl, rfl⟩ | ⟨rfl, rfl⟩ | ⟨rfl, rfl⟩ | ⟨rfl, rfl | rfl⟩ | ⟨rfl, rfl⟩ | ⟨rfl, rfl | rfl | rfl⟩ |
      ⟨rfl, rfl | rfl⟩ | ⟨rfl, rfl | rfl⟩
    · exact .badDesc hbad
    · exact .badDesc hbad
    · exact .afterRequire hp (.badDesc hbad)
    · exact .afterRequire hp (.badDesc hbad)
    · exact .afterRequire hp (.badDesc hbad)
    · exact .badDesc hbad
    · exact .badDesc hbad
    · exact .badDesc hbad
    · exact .badDesc hbad
    · exact .afterRequire hp (.badDesc hbad)
    · exact .badDesc hbad
    · exact .afterRequire hp (.badDesc hbad)
    · exact .afterRequire hp (.badDesc hbad)
  · rcases hi with ⟨rfl, -, rfl⟩ | ⟨rfl, -, rfl⟩
    all_goals exact .afterRequire hd (.require (not_le.mpr htop))
  · rcases hi with ⟨rfl, rfl, rfl⟩ | ⟨rfl, rfl, rfl⟩
    all_goals exact .afterRequire hd (.afterRequire htop (.badRegion hbad))
  · rcases hi with ⟨rfl, hcount⟩ | ⟨rfl, hcount⟩
    all_goals exact .afterRequire hd (.afterHandle hn hk he hl (.afterRequire hcount (.badRegion hbad)))
  · exact .afterRequire hd (.require (not_lt.mpr hs))
  · exact .afterRequire hd (.require (not_lt.mpr hs))
  · exact .afterRequire hd (.afterRequire hs (.require (by omega)))

end Sys2Proof.Machine
end
section
/-! ### The fields of a descriptor in DMEM (spec/20_memory.md R203, spec/30_encoding.md R333) -/

namespace Sys2Proof.Machine

section
variable (m : List Host.Cell) (a : Nat) {off n : Nat}

theorem u8_readBytes (h : off < n) : u8 (readBytes m a n) off = memRead m (a + off) 1 := by
  simp [u8, readBytes, memRead, leNat, List.getD_eq_getElem?_getD, h]

theorem u16_readBytes (h : off + 1 < n) : u16 (readBytes m a n) off = memRead m (a + off) 2 := by
  rw [u16, u8_readBytes m a (by omega), u8_readBytes m a h]
  simp [memRead, readBytes, leNat, Nat.add_assoc, List.range_succ]

theorem u32_readBytes (h : off + 3 < n) : u32 (readBytes m a n) off = memRead m (a + off) 4 := by
  rw [u32, u16_readBytes m a (by omega), u16_readBytes m a h]
  simp [memRead, readBytes, leNat, Nat.add_assoc, List.range_succ]
  omega

/-- The fields of a grant that PUSCH_BUILD checks before its handle. -/
theorem grantOfBytes_readBytes :
    grantReserved (readBytes m a 32) = memRead m (a + 0x13) 1 + memRead m (a + 0x1E) 2 ∧
      (grantOfBytes (readBytes m a 32)).rxFrame = memRead m (a + 0x06) 2 ∧
      (grantOfBytes (readBytes m a 32)).rxSlot = memRead m (a + 0x08) 1 ∧
      (grantOfBytes (readBytes m a 32)).payloadAddr = memRead m (a + 0x14) 4 :=
  ⟨congrArg₂ (· + ·) (u8_readBytes m a (by decide)) (u16_readBytes m a (by decide)), u16_readBytes m a (by decide),
    u8_readBytes m a (by decide), u32_readBytes m a (by decide)⟩

end

/-! ### The checks of a handle (spec/40_config_store.md R404, spec/42_pusch_builder.md R660) -/

/-- Where the grant passes its checks, PUSCH_BUILD goes on with the checks of its handle, ARG0, whatever it does with
the slot and the entry it names (R660). -/
theorem puschBuildBody_raises {s : State} {daddr : Nat} {c : FaultCode} (hd : s.initDone = true)
    (hr : RegionOk s (4 * daddr) 32 4) (hres : grantReserved (readBytes s.mem (4 * daddr) 32) = 0)
    (hrange : (grantOfBytes (readBytes s.mem (4 * daddr) 32)).rxFrame ≤ 1023 ∧
      (grantOfBytes (readBytes s.mem (4 * daddr) 32)).rxSlot < s.spf)
    (hpay : (grantOfBytes (readBytes s.mem (4 * daddr) 32)).payloadAddr < 2 ^ 26)
    (h : s.port.arg0.toNat ≠ 0xFFFFFFFF → s.port.arg0.toNat < 2 ^ 16 → Raises c (checkHandle s s.port.arg0.toNat) ∨
      ∃ k e, checkHandle s s.port.arg0.toNat = .ok (k, e) ∧ c = .badHandle ∧
        ¬(e < (s.slotRec k).numberPdus ∧ ((s.slotRec k).entry e).pduType = 3))
    (hnull : s.port.arg0.toNat = 0xFFFFFFFF → c = .fatalNull)
    (hwide : s.port.arg0.toNat ≠ 0xFFFFFFFF → 2 ^ 16 ≤ s.port.arg0.toNat → c = .badHandle) :
    Raises c (puschBuildBody daddr s) := by
  refine .afterRequire hd (.afterDesc hr (.afterRequire hres (.afterRequire hrange (.afterRequire hpay ?_))))
  by_cases h1 : s.port.arg0.toNat = 0xFFFFFFFF
  · rw [hnull h1]
    exact .require (not_not_intro h1)
  refine .afterRequire h1 ?_
  by_cases h2 : s.port.arg0.toNat < 2 ^ 16
  · refine .afterRequire h2 ?_
    rcases h h1 h2 with hc | ⟨k, e, hok, rfl, hentry⟩
    · exact .here hc
    · exact .after hok (.require hentry)
  · rw [hwide h1 (not_lt.mp h2)]
    exact .require h2

/-- Settles O31: in each clause the checks before the failing one pass, so its fault is the one raised. -/
theorem handleChecksInOrder : Obligations.HandleChecksInOrder := by
  refine ⟨fun s i clr h hi hd => ?_, fun s daddr hd hr => ?_⟩
  · have handle : ∀ {c}, Raises c (checkHandle s h) → exec i s = .next (s.raiseFault c) := fun hc => by
      rcases hi with rfl | rfl | rfl | rfl
      all_goals exact exec_of_raises (.afterRequire hd (.here hc))
    refine ⟨fun hn => handle (raises_checkHandle_null hn), fun hn hb => handle (raises_checkHandle_bounds hn hb),
      fun hn hk he => ⟨fun hl => handle (raises_checkHandle_lock hn hk he hl), fun hl hcount => exec_of_raises ?_⟩⟩
    rcases hcount with ⟨rfl, hcount⟩ | ⟨rfl, hcount⟩
    · exact .afterRequire hd (.afterHandle hn hk he hl (.require (not_lt.mpr hcount)))
    · exact .afterRequire hd (.afterHandle hn hk he hl (.require (not_le.mpr hcount)))
  · intro bad payload h k e
    obtain ⟨hres, hframe, hslot, hpayload⟩ := grantOfBytes_readBytes s.mem (4 * daddr)
    have build : ¬bad → payload < 2 ^ 26 → ∀ {c},
        (h ≠ 0xFFFFFFFF → h < 2 ^ 16 → Raises c (checkHandle s h) ∨
          ∃ k e, checkHandle s h = .ok (k, e) ∧ c = .badHandle ∧
            ¬(e < (s.slotRec k).numberPdus ∧ ((s.slotRec k).entry e).pduType = 3)) →
        (h = 0xFFFFFFFF → c = .fatalNull) → (h ≠ 0xFFFFFFFF → 2 ^ 16 ≤ h → c = .badHandle) →
        exec (.puschBuild daddr) s = .next (s.raiseFault c) := fun hgood hpay _ hc hnull hwide =>
      exec_of_raises (puschBuildBody_raises hd hr (by omega) (by omega) (by omega) hc hnull hwide)
    refine ⟨fun hbad => exec_of_raises ?_, fun hgood hpay => exec_of_raises ?_, fun hgood hpay => ⟨fun hn => ?_,
      fun hn1 hn2 hb => ?_, fun hn hk he => ⟨fun hl => ?_, fun hl hentry => ?_⟩⟩⟩
    · refine .afterRequire hd (.afterDesc hr ?_)
      by_cases hz : grantReserved (readBytes s.mem (4 * daddr) 32) = 0
      · exact .afterRequire hz (.require (by omega))
      · exact .require hz
    · exact .afterRequire hd (.afterDesc hr (.afterRequire (by omega) (.afterRequire (by omega) (.require (by omega)))))
    · exact build hgood hpay (fun _ _ => .inl (raises_checkHandle_null (by omega))) (fun _ => rfl) (by omega)
    · exact build hgood hpay (fun _ _ => .inl (raises_checkHandle_bounds hn2 (by omega))) (fun h1 => absurd h1 hn1)
        fun _ _ => rfl
    · exact build hgood hpay (fun _ _ => .inl (raises_checkHandle_lock (by omega) hk he hl)) (by omega) (by omega)
    · refine build hgood hpay (fun _ _ => .inr ⟨k, e, ?_, rfl, ?_⟩) (by omega) fun _ _ => rfl
      · exact checkHandle_ok_iff.mpr ⟨by omega, ⟨hk, he⟩, hl, rfl⟩
      · rintro ⟨hlt, htype⟩
        rcases hentry with hle | hother
        · exact absurd hlt (not_lt.mpr hle)
        · exact hother htype

end Sys2Proof.Machine
end
section
/-! ### The regions a descriptor names (spec/60_exceptions.md R1012) -/

namespace Sys2Proof.Machine

/-- The first elements of a list, by their numbers. -/
theorem take_eq_map_range {α : Type} {l : List α} {n : Nat} (h : n ≤ l.length) (d : α) :
    l.take n = (List.range n).map fun v => l.getD v d := by
  refine List.ext_getElem (by simpa using h) fun i h1 h2 => ?_
  have hi : i < l.length := by
    rw [List.length_take] at h1
    omega
  simp [hi]

theorem forall_mem_take_iff {α : Type} {l : List α} {n : Nat} (h : n ≤ l.length) (d : α) {P : α → Prop} :
    (∀ x ∈ l.take n, P x) ↔ ∀ v < n, P (l.getD v d) := by
  simp [take_eq_map_range h d]

/-- The regions of `nAddr` addresses of a descriptor, as a command checks them together. -/
theorem addressRegions_eq {l : List Nat} {nAddr : Nat} (h : nAddr ≤ l.length) (n al : Nat) :
    ((List.range nAddr).map fun v => (l.getD v 0, n, al)) = (l.take nAddr).map fun a => (a, n, al) := by
  rw [take_eq_map_range h 0, List.map_map]
  rfl

/-- The checks of an LCP descriptor (spec/41_lcp_bsr.md R520). -/
theorem LcpDesc.legal_iff {spf : Nat} {d : LcpDesc} :
    d.legal spf = true ↔ d.reserved = 0 ∧ d.frame ≤ 1023 ∧ d.slot < spf ∧ d.buflen ≠ 0 :=
  decide_eq_true_iff

/-- The checks of a BSR descriptor: each LCG has a priority exactly when it has data (spec/41_lcp_bsr.md R540). -/
theorem BsrDesc.legal_iff {d : BsrDesc} : d.legal = true ↔
    ∀ g < 8, (1 ≤ d.lcgBestPrio.getD g 255 ∧ d.lcgBestPrio.getD g 255 ≤ 16 ∧ 0 < d.lcgBytes.getD g 0) ∨
      (d.lcgBestPrio.getD g 255 = 255 ∧ d.lcgBytes.getD g 0 = 0) := by
  simp only [BsrDesc.legal, List.all_eq_true, List.mem_range, decide_eq_true_eq]
  exact forall₂_congr fun g _ => by omega

/-- A PUSCH PDU that passes its checks has at most 4 layers (spec/43_re_mapper.md R701). -/
theorem Pdu.nLayers_le {c : CfgRegs} {p : Pdu} (h : p.legal c = true) : p.nLayers ≤ 4 := by
  obtain ⟨halloc, hdmrs, -, -⟩ := (p.legal_iff c).mp h
  obtain ⟨-, -, -, hsymbols⟩ := (p.allocLegal_iff c).mp halloc
  obtain ⟨⟨-, hlayers, -⟩, -⟩ := (Pdu.dmrsLegal_iff hsymbols).mp hdmrs
  exact hlayers

section
variable {s : State} {c : FaultCode} {pre post : List Nat} {a : Nat}

/-- The addresses before the first bad one pass. -/
theorem raises_checkAddresses_append (hpre : ∀ b ∈ pre, b < 2 ^ 26 ∧ b % 4 = 0)
    (h : Raises c (checkAddresses (a :: post))) : Raises c (checkAddresses (pre ++ a :: post)) := by
  induction pre with
  | nil => exact h
  | cons b rest ih =>
    obtain ⟨⟨hlow, halign⟩, hrest⟩ := List.forall_mem_cons.mp hpre
    exact .afterRequire hlow (.afterRequire halign (ih hrest))

/-- Where LAYER_MAP has no symbols, its first bad address raises the fault (spec/44_precoding_transform.md R810,
log 27). -/
theorem raises_checkLayerRegions_empty {d : LayerMapDesc} (hn : d.nIn = 0)
    (hl : d.inAddr :: d.outAddr.take d.nLayers = pre ++ a :: post) (hpre : ∀ b ∈ pre, b < 2 ^ 26 ∧ b % 4 = 0)
    (h : Raises c (checkAddresses (a :: post))) : Raises c (checkLayerRegions s d) := by
  unfold checkLayerRegions
  rw [if_pos hn, hl]
  exact raises_checkAddresses_append hpre h

theorem raises_checkLayerRegions {d : LayerMapDesc} (hn : d.nIn ≠ 0)
    (h : FirstBadRegion s ((d.inAddr, 4 * d.nIn, 4) ::
      (d.outAddr.take d.nLayers).map fun a => (a, 4 * (d.nIn / d.nLayers), 4)) c) :
    Raises c (checkLayerRegions s d) := by
  unfold checkLayerRegions
  rw [if_neg hn]
  exact .region h raises_checkRegions

end

/-- An LLR command is the shared body with its number of magnitude arrays (spec/45_llr.md R910 to R912). -/
theorem commandBody_llr {s : State} {i : Instr} {nm daddr : Nat}
    (hi : (i = .llr16Qam daddr ∧ nm = 1) ∨ (i = .llr64Qam daddr ∧ nm = 2) ∨ (i = .llr256Qam daddr ∧ nm = 3)) :
    commandBody s i = llrBody nm daddr s ∧ nm ≤ 3 := by
  rcases hi with ⟨rfl, rfl⟩ | ⟨rfl, rfl⟩ | ⟨rfl, rfl⟩
  · exact ⟨rfl, by decide⟩
  · exact ⟨rfl, by decide⟩
  · exact ⟨rfl, by decide⟩

/-- Settles O18: the checks before the regions pass, and of the regions the first bad one raises its fault. -/
theorem descriptorRegionsFault : Obligations.DescriptorRegionsFault := by
  intro s
  refine ⟨?lcpRun, ?bsrEval, ?layerMap, ?tpDft, ?mapPusch, ?precode, ?llr⟩
  case lcpRun =>
    intro daddr c hd hr d h1 h2 h3 h4 hbad
    exact exec_of_raises
      (.afterRequire hd (.afterDesc hr (.afterRequire (LcpDesc.legal_iff.mpr ⟨h1, h2, h3, h4⟩) (.badRegion hbad))))
  case bsrEval =>
    intro daddr c hr d hlegal hbad
    exact exec_of_raises (.afterDesc hr (.afterRequire (BsrDesc.legal_iff.mpr hlegal) (.badRegion hbad)))
  case layerMap =>
    intro daddr c hr d hres h1 h4 hmod
    have regions : ∀ {c}, Raises c (checkLayerRegions s d) → exec (.layerMap daddr) s = .next (s.raiseFault c) :=
      fun h => exec_of_raises (.afterDesc hr (.afterRequire ⟨hres, h1, h4⟩ (.afterRequire hmod (.here h))))
    refine ⟨fun hn hbad => regions (raises_checkLayerRegions hn ?_), fun hn pre a post hl hpre => ?_⟩
    · rwa [addressRegions_eq h4] at hbad
    · rw [← take_eq_map_range h4] at hl
      exact ⟨fun hhigh => regions (raises_checkLayerRegions_empty hn hl hpre (.require (not_lt.mpr hhigh))),
        fun hlow halign => regions (raises_checkLayerRegions_empty hn hl hpre (.afterRequire hlow (.require halign)))⟩
  case tpDft =>
    intro daddr c hr t p
    refine ⟨fun hbad => exec_of_raises (.afterDesc hr (.badRegion hbad)), fun hpr hp htp hm hn hbad => exec_of_raises ?_⟩
    exact .afterDesc hr (.afterRegion hpr (.afterRequire ⟨hp, htp⟩ (.afterRequire hm (.afterRequire hn
      (.region hbad .badRegion)))))
  case mapPusch =>
    intro daddr c hv hr d b
    refine ⟨fun hbad => exec_of_raises (.afterRequire hv (.afterDesc hr (.badRegion hbad))),
      fun hpr hp hbad => exec_of_raises ?_⟩
    rw [addressRegions_eq (Pdu.nLayers_le hp), List.append_assoc, List.append_assoc] at hbad
    have hptrs : (if b.pt = [] then [] else [(d.ptrsAddr, 4 * (b.pt.length * b.nPt), 4)]) =
        (ptrsAddrs b d).map fun a => (a, 4 * (b.pt.length * b.nPt), 4) := by
      unfold ptrsAddrs
      split <;> rfl
    rw [hptrs] at hbad
    exact .afterRequire hv (.afterDesc hr (.afterRegion hpr (.afterRequire hp (.regions hbad fun hbad =>
      .region hbad fun hbad => .regions hbad .badRegion))))
  case precode =>
    intro daddr c hv hr d p
    refine ⟨fun hbad => exec_of_raises (.afterRequire hv (.afterDesc hr (.badRegion hbad))),
      fun hpr hp hant hlay hmat hbad => exec_of_raises ?_⟩
    exact .afterRequire hv (.afterDesc hr (.afterRegion hpr (.afterRequire hp (.afterRequire ⟨hant, hlay⟩
      (.afterRequire hmat (.region hbad .badRegion))))))
  case llr =>
    intro daddr nm i c hi hr d hn hbad
    obtain ⟨hbody, hnm⟩ := commandBody_llr (s := s) hi
    rw [addressRegions_eq (l := d.magAddr) hnm] at hbad
    refine exec_of_raises ?_
    rw [hbody]
    exact .afterDesc hr (.afterRequire hn (.region hbad fun hbad => .regions hbad .badRegion))

end Sys2Proof.Machine
end
section
/-! ### The checks of a descriptor whose region is right (spec/20_memory.md R216, spec/30_encoding.md R307) -/

namespace Sys2Proof.Machine

/-! #### Overlaps -/

theorem overlaps_comm (x y : Nat × Nat) : overlaps x y = overlaps y x := by
  simp only [overlaps]
  grind

theorem clearOf_eq_true_iff {x : Nat × Nat} {l : List (Nat × Nat)} :
    clearOf x l = true ↔ ∀ y ∈ l, overlaps x y = false := by
  simp [clearOf]

theorem not_clearOf {x y : Nat × Nat} {l : List (Nat × Nat)} (hy : y ∈ l) (h : overlaps x y = true) :
    ¬clearOf x l = true := fun hc => by
  rw [clearOf_eq_true_iff.mp hc y hy] at h
  cases h

theorem disjointAll_iff {l : List (Nat × Nat)} :
    disjointAll l = true ↔ l.Pairwise fun x y => overlaps x y = false := by
  induction l with
  | nil => simp [disjointAll]
  | cons x rest ih => simp [disjointAll, clearOf_eq_true_iff, ih]

/-- The regions LAYER_MAP writes, by the number of the layer. -/
theorem layerRegions_eq {d : LayerMapDesc} (h : d.nLayers ≤ d.outAddr.length) :
    layerRegions d = (List.range d.nLayers).map fun v => (d.outAddr.getD v 0, 4 * (d.nIn / d.nLayers)) := by
  rw [layerRegions, take_eq_map_range h 0, List.map_map]
  rfl

/-- The PTRS address counts only where there are PTRS symbols (spec/43_re_mapper.md R720). -/
theorem forall_mem_ptrsAddrs_iff {b : Bundle} {d : MapDesc} {P : Nat → Prop} :
    (∀ a ∈ ptrsAddrs b d, P a) ↔ (b.pt ≠ [] → P d.ptrsAddr) := by
  by_cases h : b.pt = [] <;> simp [ptrsAddrs, h]

/-- What MAP_PUSCH reads, region by region (spec/43_re_mapper.md R720). -/
theorem clearOf_mapInputs_iff {x : Nat × Nat} {daddr : Nat} {d : MapDesc} {b : Bundle}
    (h : b.layers ≤ d.dataAddr.length) : clearOf x (mapInputs daddr d b) = true ↔
      overlaps x (4 * daddr, 36) = false ∧ overlaps x (d.pduAddr, 64) = false ∧
      (∀ v < b.layers, overlaps x (d.dataAddr.getD v 0, 4 * d.dataLen) = false) ∧
      overlaps x (d.dmrsAddr, 4 * (b.dm.length * b.j)) = false ∧
      (b.pt ≠ [] → overlaps x (d.ptrsAddr, 4 * (b.pt.length * b.nPt)) = false) := by
  simp only [clearOf_eq_true_iff, mapInputs, List.forall_mem_cons, List.forall_mem_append, List.forall_mem_map,
    forall_mem_take_iff h 0, forall_mem_ptrsAddrs_iff, descRegion]

/-- An output that overlaps another one, an input or the descriptor is not clear (spec/44_precoding_transform.md
R810). -/
theorem not_layerRegions_clear {d : LayerMapDesc} {daddr : Nat} (h4 : d.nLayers ≤ d.outAddr.length)
    (h : ∃ v < d.nLayers,
      overlaps (d.outAddr.getD v 0, 4 * (d.nIn / d.nLayers)) (d.inAddr, 4 * d.nIn) = true ∨
      overlaps (d.outAddr.getD v 0, 4 * (d.nIn / d.nLayers)) (4 * daddr, 28) = true ∨
      ∃ u < v, overlaps (d.outAddr.getD v 0, 4 * (d.nIn / d.nLayers))
        (d.outAddr.getD u 0, 4 * (d.nIn / d.nLayers)) = true) :
    ¬(disjointAll (layerRegions d) = true ∧
      ((layerRegions d).all fun x => clearOf x [(d.inAddr, 4 * d.nIn), descRegion daddr 28]) = true) := by
  rw [layerRegions_eq h4, disjointAll_iff, List.pairwise_map, List.all_eq_true]
  rintro ⟨hdisjoint, hclear⟩
  obtain ⟨v, hv, hover⟩ := h
  have hin := hclear _ (List.mem_map_of_mem (List.mem_range.mpr hv))
  rcases hover with hover | hover | ⟨u, huv, hover⟩
  · exact not_clearOf List.mem_cons_self hover hin
  · exact not_clearOf (List.mem_cons_of_mem _ List.mem_cons_self) hover hin
  · have hu := List.pairwise_iff_getElem.mp hdisjoint u v (by rw [List.length_range]; omega)
      (by rwa [List.length_range]) huv
    rw [List.getElem_range, List.getElem_range, overlaps_comm, hover] at hu
    cases hu

/-! #### The descriptors -/

/-- The checks of an LC config descriptor (spec/41_lcp_bsr.md R500). -/
theorem LcDesc.legal_iff {spf : Nat} {d : LcDesc} : d.legal spf = true ↔
    d.reserved = 0 ∧ d.lcid ≤ 32 ∧ 1 ≤ d.priority ∧ d.priority ≤ 16 ∧ d.lcg ≤ 7 ∧ d.flags < 4 ∧
      d.bucketSize < 2 ^ 31 ∧ d.frame ≤ 1023 ∧ d.slot < spf :=
  decide_eq_true_iff

/-- The regions of LAYER_MAP pass where each is inside DMEM and aligned, with symbols or without. -/
theorem checkLayerRegions_pos {s : State} {d : LayerMapDesc} (h4 : d.nLayers ≤ d.outAddr.length)
    (hin : RegionOk s d.inAddr (4 * d.nIn) 4)
    (hout : ∀ v < d.nLayers, RegionOk s (d.outAddr.getD v 0) (4 * (d.nIn / d.nLayers)) 4) :
    checkLayerRegions s d = .ok () := by
  have hall := (forall_mem_take_iff h4 0 (P := fun a => RegionOk s a (4 * (d.nIn / d.nLayers)) 4)).mpr hout
  refine checkLayerRegions_ok_iff.mpr ⟨fun _ => List.forall_mem_cons.mpr ⟨?_, fun a ha => ?_⟩, fun _ => ⟨hin, hall⟩⟩
  · obtain ⟨⟨hlow, -⟩, halign⟩ := hin
    exact ⟨hlow, halign⟩
  · obtain ⟨⟨hlow, -⟩, halign⟩ := hall a ha
    exact ⟨hlow, halign⟩

/-- The PDUs PRECODE refuses are those that fail one of its three checks (spec/44_precoding_transform.md R833). -/
theorem precodePdu_illegal_iff {c : CfgRegs} {p : Pdu} :
    (p.legal c = false ∨ p.nAnt ≠ c.nAnt ∨ p.nAnt < p.nLayers ∨
        (p.tpmi ≠ 0 ∧ wLookup p.nAnt p.nLayers p.tpmi = none)) ↔
      ¬(p.legal c = true ∧ (p.nAnt = c.nAnt ∧ p.nLayers ≤ p.nAnt) ∧
        (p.tpmi ≠ 0 → (wLookup p.nAnt p.nLayers p.tpmi).isSome = true)) := by
  simp only [← Option.not_isSome_iff_eq_none, ← Bool.not_eq_true, ← not_le]
  tauto

/-- Settles O19: the regions are right, so the first check of the descriptor that fails raises its fault. -/
theorem descriptorChecksFault : Obligations.DescriptorChecksFault := by
  intro s daddr
  refine ⟨?lcConfig, ?lcpRun, ?bsrEval, ?layerMap, ?tpDft, ?mapPusch, ?precode, ?llr⟩
  case lcConfig =>
    intro hd hr d hbad
    refine exec_of_raises (.afterRequire hd (.afterDesc hr (.require fun hl => ?_)))
    have hlegal := (LcDesc.legal_iff (d := d)).mp hl
    omega
  case lcpRun =>
    intro hd hr d hbad
    refine exec_of_raises (.afterRequire hd (.afterDesc hr ?_))
    by_cases hl : d.legal s.spf = true
    · obtain ⟨h1, h2, h3, h4⟩ := LcpDesc.legal_iff.mp hl
      obtain ⟨hout, hover⟩ : RegionOk s d.outAddr d.buflen 1 ∧ overlaps (d.outAddr, d.buflen) (4 * daddr, 12) = true := by
        rcases hbad with h | h | h | h | h
        · exact absurd h1 h
        · omega
        · omega
        · exact absurd h h4
        · exact h
      exact .afterRequire hl (.afterRegion hout (.require (not_clearOf List.mem_cons_self hover)))
    · exact .require hl
  case bsrEval =>
    intro hr d consistent hbad
    refine exec_of_raises (.afterDesc hr ?_)
    by_cases hl : d.legal = true
    · obtain ⟨hout, hover⟩ := hbad.resolve_left (not_not_intro (BsrDesc.legal_iff.mp hl))
      exact .afterRequire hl (.afterRegion hout (.require (not_clearOf List.mem_cons_self hover)))
    · exact .require hl
  case layerMap =>
    intro hr d out
    refine ⟨fun hbad => ?_, fun hres h1 h4 => ⟨fun hmod => ?_, fun hmod hin hout hover => ?_⟩⟩
    · have hillegal : ¬(d.reserved = 0 ∧ 1 ≤ d.nLayers ∧ d.nLayers ≤ 4) := by omega
      exact exec_of_raises (.afterDesc hr (.require hillegal))
    · exact exec_of_raises (.afterDesc hr (.afterRequire ⟨hres, h1, h4⟩ (.require hmod)))
    · exact exec_of_raises (.afterDesc hr (.afterRequire ⟨hres, h1, h4⟩ (.afterRequire hmod
        (.after (checkLayerRegions_pos h4 hin hout) (.require (not_layerRegions_clear h4 hover))))))
  case tpDft =>
    intro hr t p M hpr
    refine ⟨fun hbad => exec_of_raises (.afterDesc hr (.afterRegion hpr (.require ?_))), fun hp htp =>
      ⟨fun hm => ?_, fun hm => ⟨fun hn => ?_, fun hn hin hout hover => ?_⟩⟩⟩
    · rintro ⟨hp, htp⟩
      rcases hbad with h | h
      · exact Bool.eq_false_iff.mp h hp
      · exact h htp
    · exact exec_of_raises (.afterDesc hr (.afterRegion hpr (.afterRequire ⟨hp, htp⟩
        (.require (Bool.eq_false_iff.mp hm)))))
    · exact exec_of_raises (.afterDesc hr (.afterRegion hpr (.afterRequire ⟨hp, htp⟩ (.afterRequire hm
        (.require hn)))))
    · refine exec_of_raises (.afterDesc hr (.afterRegion hpr (.afterRequire ⟨hp, htp⟩ (.afterRequire hm
        (.afterRequire hn (.afterRegion hin (.afterRegion hout (.require ?_))))))))
      rintro ⟨hsame, hclear⟩
      rcases hover with ⟨hne, hover⟩ | hover | hover
      · exact Bool.eq_false_iff.mp (hsame.resolve_left hne) hover
      · exact not_clearOf List.mem_cons_self hover hclear
      · exact not_clearOf (List.mem_cons_of_mem _ List.mem_cons_self) hover hclear
  case mapPusch =>
    intro hv hr d b grid hpr
    refine ⟨fun hp => ?_, fun hp hdata hdmrs hptrs hgrid => ?_⟩
    · exact exec_of_raises (.afterRequire hv (.afterDesc hr (.afterRegion hpr (.require (Bool.eq_false_iff.mp hp)))))
    intro bad
    have h4 : b.layers ≤ d.dataAddr.length := Pdu.nLayers_le hp
    have hclear : clearOf grid (mapInputs daddr d b) = true ↔ ¬bad := by
      simp only [clearOf_mapInputs_iff h4, bad, not_or, not_exists, not_and, Bool.not_eq_true]
    have regions : ∀ {c} {f : Unit → Except Stop State}, Raises c (f ()) →
        Raises c (checkRegions s (4 * d.dataLen) 4 (d.dataAddr.take b.layers) >>= fun _ =>
          checkRegion s d.dmrsAddr (4 * (b.dm.length * b.j)) 4 >>= fun _ =>
          checkRegions s (4 * (b.pt.length * b.nPt)) 4 (ptrsAddrs b d) >>= fun _ =>
          checkRegion s grid.1 grid.2 4 >>= f) := fun h =>
      .afterRegions ((forall_mem_take_iff h4 0).mpr hdata) (.afterRegion hdmrs
        (.afterRegions (forall_mem_ptrsAddrs_iff.mpr hptrs) (.afterRegion hgrid h)))
    refine ⟨fun hbad => ?_, fun hgood hlen => ?_⟩
    · exact exec_of_raises (.afterRequire hv (.afterDesc hr (.afterRegion hpr (.afterRequire hp
        (regions (.require fun hc => hclear.mp hc hbad))))))
    · exact exec_of_raises (.afterRequire hv (.afterDesc hr (.afterRegion hpr (.afterRequire hp
        (regions (.afterRequire (hclear.mpr hgood) (.require hlen)))))))
  case precode =>
    intro hv hr d p grid layers illegal hpr
    have hillegal : illegal ↔ _ := precodePdu_illegal_iff
    refine ⟨fun hbad => exec_of_raises (.afterRequire hv (.afterDesc hr (.afterRegion hpr ?_))),
      fun hgood hlay hgrid hover => exec_of_raises (.afterRequire hv (.afterDesc hr (.afterRegion hpr ?_)))⟩
    · by_cases hp : p.legal s.cfg = true
      · refine .afterRequire hp ?_
        by_cases hant : p.nAnt = s.cfg.nAnt ∧ p.nLayers ≤ p.nAnt
        · exact .afterRequire hant (.require fun hmat => hillegal.mp hbad ⟨hp, hant, hmat⟩)
        · exact .require hant
      · exact .require hp
    · obtain ⟨hp, hant, hmat⟩ := not_not.mp (hillegal.not.mp hgood)
      refine .afterRequire hp (.afterRequire hant (.afterRequire hmat (.afterRegion hlay (.afterRegion hgrid
        (.require ?_)))))
      rcases hover with hover | hover | hover
      · exact not_clearOf List.mem_cons_self hover
      · exact not_clearOf (List.mem_cons_of_mem _ List.mem_cons_self) hover
      · exact not_clearOf (List.mem_cons_of_mem _ (List.mem_cons_of_mem _ List.mem_cons_self)) hover
  case llr =>
    intro i nm hi hr d out
    obtain ⟨hbody, hnm⟩ := commandBody_llr (s := s) hi
    refine ⟨fun hn => exec_of_raises ?_, fun hn hrx hmag hout hover => exec_of_raises ?_⟩
    · rw [hbody]
      exact .afterDesc hr (.require (not_le.mpr hn))
    · rw [hbody]
      refine .afterDesc hr (.afterRequire hn (.afterRegion hrx (.afterRegions ((forall_mem_take_iff hnm 0).mpr hmag)
        (.afterRegion hout (.require ?_)))))
      rcases hover with hover | hover | ⟨k, hk, hover⟩
      · exact not_clearOf List.mem_cons_self hover
      · exact not_clearOf (List.mem_cons_of_mem _ List.mem_cons_self) hover
      · refine not_clearOf (List.mem_cons_of_mem _ (List.mem_cons_of_mem _ ?_)) hover
        rw [take_eq_map_range (l := d.magAddr) hnm 0, List.map_map]
        exact List.mem_map_of_mem (List.mem_range.mpr hk)

end Sys2Proof.Machine
end
section
/-! ### A held slot (spec/40_config_store.md R402, R450) -/

namespace Sys2Proof.Machine

theorem SameSlot.refl (r : SlotRec) : SameSlot r r := rfl

theorem SameSlot.lock {r r' : SlotRec} (h : SameSlot r r') : r'.lock = r.lock := (congrArg SlotRec.lock h :)

theorem State.hold_sameSlot (s : State) (l : List Nat) (k : Nat) : SameSlot (s.slotRec k) ((s.hold l).slotRec k) := by
  obtain ⟨-, -, hsame⟩ := s.hold_eq l
  exact hsame k

theorem State.unwait_lock (s : State) (k : Nat) : (s.unwait.slotRec k).lock = (s.slotRec k).lock :=
  (s.hold_sameSlot [] k).lock

/-- No other port holds a lock that is FREE once the issuing port waits no more. -/
theorem State.free_of_unwait (s : State) {k : Nat} (h : (s.unwait.slotRec k).lock = none) (q : Nat)
    (hq : (s.slotRec k).lock = some q) : q = s.cur := by
  rw [← s.unwait_lock, h] at hq
  cases hq

/-- The slots whose lock another port holds in the first state read the same in the second, but for the ports that
wait on them. -/
def HeldKept (s t : State) : Prop :=
  ∀ k q, k < s.spf → (s.slotRec k).lock = some q → q ≠ s.cur → SameSlot (s.slotRec k) (t.slotRec k)

section
variable {s t : State}

theorem HeldKept.to_store {u : State} (h : HeldKept s t) (hu : u.store = t.store) : HeldKept s u := by
  intro k q hk hl hq
  have hrec : u.slotRec k = t.slotRec k := by rw [State.slotRec, State.slotRec, hu]
  rw [hrec]
  exact h k q hk hl hq

theorem HeldKept.of_store (h : t.store = s.store) : HeldKept s t :=
  HeldKept.to_store (fun _ _ _ _ _ => SameSlot.refl _) h

theorem Frame.heldKept (h : Frame s t) : HeldKept s t := .of_store h.store

theorem State.unwait_heldKept (s : State) : HeldKept s s.unwait := fun k _ _ _ _ => s.hold_sameSlot [] k

/-- A change of a slot that no other port holds leaves the held ones alone. -/
theorem HeldKept.modSlot (h : HeldKept s t) {k : Nat} (hk : ∀ q, (s.slotRec k).lock = some q → q = s.cur)
    (f : SlotRec → SlotRec) : HeldKept s (t.modSlot k f) := by
  intro i q hi hl hq
  rw [State.modSlot_slotRec, if_neg]
  · exact h i q hi hl hq
  · rintro ⟨rfl, -⟩
    exact hq (hk q hl)

end

section
variable {P : State → Prop} {s : State}

/-- A handle that passes its checks names a slot whose lock the issuing port holds (R404). -/
theorem EndsIn.checkHandle_held {w : Nat} {f : Nat × Nat → Except Stop State}
    (h : (∀ q, (s.slotRec (bits w 15 8)).lock = some q → q = s.cur) → EndsIn P (f (bits w 15 8, bits w 7 0))) :
    EndsIn P (Machine.checkHandle s w >>= f) := by
  intro t ht
  obtain ⟨x, hx, ha⟩ := bind_ok_iff.mp ht
  obtain ⟨-, -, hl, rfl⟩ := checkHandle_ok_iff.mp hx
  refine h (fun q hq => ?_) t ha
  rw [hl] at hq
  exact (Option.some.inj hq).symm

/-- A command that goes on after Acquire found the lock FREE (R402). -/
theorem EndsIn.acquire_free {k : Nat} {f : State → Except Stop State}
    (h : (s.slotRec k).lock = none → EndsIn P (f (s.modSlot k fun r => { r with lock := some s.cur }))) :
    EndsIn P (s.acquire k >>= f) := by
  rcases s.acquire_cases k with ⟨hl, -⟩ | ⟨-, hk⟩ | ⟨_, -, -, hk⟩
  · exact .acquire (h hl)
  · rw [hk]
    exact .error _
  · rw [hk]
    exact .error _

end

section
variable (s : State)

theorem lcConfigBody_frame (daddr : Nat) : EndsIn (Frame s) (lcConfigBody daddr s) :=
  .require fun _ => .bind fun _ => .require fun _ => .pure (by constructor <;> simp)

theorem lcpRunBody_frame (daddr : Nat) : EndsIn (Frame s) (lcpRunBody daddr s) := by
  refine .require fun _ => .bind fun bs => .require fun _ => .checkRegion fun hregion => .require fun _ =>
    .require fun _ => .require fun _ => .pure ?_
  have hbuflen : (lcpDescOfBytes bs).buflen ≤ 2 ^ 26 := by
    have hsize : s.build.dmemSize ≤ 2 ^ 26 := Nat.le_of_lt_succ s.build.dmemSizeFin.isLt
    omega
  obtain ⟨D, hinv⟩ := lcpServeAll_inv
    (s.creditAll (s.absSlot (lcpDescOfBytes bs).frame (lcpDescOfBytes bs).slot)) hbuflen
  exact Frame.trans (by constructor <;> simp) (hinv.frame.trans (lcpFinish_quiet ..).toFrame)

/-- TA_EXPIRY ends normally only where no lock is held (R601). -/
theorem taExpiryBody_heldKept : EndsIn (HeldKept s) (taExpiryBody s.unwait) := by
  refine .require fun _ => .require fun _ => .ite (fun _ => .error _) fun hfree => .pure ?_
  intro k q hk hl hq
  refine absurd (List.ne_nil_of_mem (a := k) ?_) hfree
  refine List.mem_filter.mpr ⟨List.mem_range.mpr hk, decide_eq_true ?_⟩
  rw [s.unwait_lock, hl]
  exact Option.some_ne_none q

theorem lockGetGranted_heldKept {t : State} (h : HeldKept s t) {k : Nat}
    (hk : ∀ q, (s.slotRec k).lock = some q → q = s.cur) (ptype frame : Nat) :
    HeldKept s (lockGetGranted ptype frame k t) := by
  have hretag : HeldKept s (t.retag frame k) := by
    unfold State.retag
    split
    · exact (h.to_store rfl).modSlot hk _
    · exact h.modSlot hk _
  unfold lockGetGranted
  dsimp only
  split
  · exact (hretag.modSlot hk _).to_store rfl
  · exact (hretag.modSlot hk _).to_store rfl

theorem ulLockGetBody_heldKept (ptype frame slot : Nat) :
    EndsIn (HeldKept s) (ulLockGetBody ptype frame slot s.unwait) := by
  refine .require fun _ => .require fun _ => .require fun _ => .ite (fun _ => ?_) fun _ => .acquire_free fun hl => ?_
  · exact .pure (s.unwait_heldKept.to_store rfl)
  · have hfree := s.free_of_unwait hl
    exact .pure (lockGetGranted_heldKept s (s.unwait_heldKept.modSlot hfree _) hfree _ _)

theorem ulIterGetBody_heldKept (slot : Nat) : EndsIn (HeldKept s) (ulIterGetBody slot s.unwait) := by
  refine .require fun _ => .require fun _ => .ite (fun _ => ?_) fun _ => .acquire_free fun hl => ?_
  · exact .pure (s.unwait_heldKept.to_store rfl)
  · have hfree := s.free_of_unwait hl
    exact .pure (((s.unwait_heldKept.modSlot hfree _).modSlot hfree _).to_store rfl)

theorem ulReleaseBody_heldKept (clr handle : Nat) : EndsIn (HeldKept s) (ulReleaseBody clr handle s) := by
  refine .require fun _ => .checkHandle_held fun hl => .pure ?_
  by_cases hclr : clr = 1
  · simp only [if_pos hclr]
    exact (((HeldKept.of_store rfl).modSlot hl _).modSlot hl _).to_store rfl
  · simp only [if_neg hclr]
    exact ((HeldKept.of_store rfl).modSlot hl _).to_store rfl

theorem ulRemoveLastBody_heldKept (handle : Nat) : EndsIn (HeldKept s) (ulRemoveLastBody handle s) :=
  .require fun _ => .checkHandle_held fun hl => .require fun _ => .pure
    (((HeldKept.of_store rfl).modSlot hl _).to_store rfl)

theorem ulPduWriteBody_heldKept (handle : Nat) : EndsIn (HeldKept s) (ulPduWriteBody handle s) :=
  .require fun _ => .checkHandle_held fun hl => .require fun _ => .bind fun _ => .pure
    (((HeldKept.of_store rfl).modSlot hl _).to_store rfl)

theorem puschBuildBody_heldKept (daddr : Nat) : EndsIn (HeldKept s) (puschBuildBody daddr s) := by
  refine .require fun _ => .bind fun bs => .require fun _ => .require fun _ => .require fun _ => .require fun _ =>
    .require fun _ => .checkHandle_held fun hl => .require fun _ => ?_
  split
  · exact .pure (.of_store rfl)
  · exact .pure (((HeldKept.of_store rfl).modSlot hl _).to_store rfl)

/-- No command that ends normally after INIT changes a slot that another port holds: it looks at no slot, or at one
whose lock is its own or FREE. -/
theorem commandBody_heldKept (hd : s.initDone = true) (i : Instr) : EndsIn (HeldKept s) (commandBody s i) := by
  have frame : ∀ {x : Except Stop State}, EndsIn (Frame s) x → EndsIn (HeldKept s) x :=
    fun h => h.mono fun _ => Frame.heldKept
  have quiet : ∀ {x : Except Stop State}, EndsIn (Quiet s) x → EndsIn (HeldKept s) x :=
    fun h => h.mono fun _ g => g.toFrame.heldKept
  cases i with
  | cfgWrite daddr => exact .bind fun _ => .require fun _ => .require fun _ => .require fun _ => .pure (.of_store rfl)
  | init => exact .require fun _ => .require fun hi => by rw [hd] at hi; cases hi
  | lcConfig daddr => exact frame (lcConfigBody_frame s daddr)
  | taExpiry => exact taExpiryBody_heldKept s
  | ulLockGet ptype frame slot => exact ulLockGetBody_heldKept s ptype frame slot
  | ulRelease clr handle => exact ulReleaseBody_heldKept s clr handle
  | ulRemoveLast handle => exact ulRemoveLastBody_heldKept s handle
  | ulIterGet _ slot => exact ulIterGetBody_heldKept s slot
  | ulPduWrite handle => exact ulPduWriteBody_heldKept s handle
  | ulPduRead handle => exact quiet (ulPduReadBody_quiet s handle)
  | grantTarget daddr => exact quiet (grantTargetBody_quiet s daddr)
  | puschBuild daddr => exact puschBuildBody_heldKept s daddr
  | harqRead index => exact quiet (harqReadBody_quiet s index)
  | lcpRun daddr => exact frame (lcpRunBody_frame s daddr)
  | bsrEval daddr => exact quiet (bsrEvalBody_quiet s daddr)
  | lcRead index => exact quiet (lcReadBody_quiet s index)
  | layerMap daddr => exact quiet (layerMapBody_quiet s daddr)
  | tpDft daddr => exact quiet (tpDftBody_quiet s daddr)
  | mapPusch daddr => exact quiet (mapPuschBody_quiet s daddr)
  | precode daddr => exact quiet (precodeBody_quiet s daddr)
  | llr16Qam daddr => exact quiet (llrBody_quiet s 1 daddr)
  | llr64Qam daddr => exact quiet (llrBody_quiet s 2 daddr)
  | llr256Qam daddr => exact quiet (llrBody_quiet s 3 daddr)

end

/-- Settles O35: a fault changes no slot, a hold only the waiters, and a normal end no slot that another port holds. -/
theorem heldSlotIsLeftToItsHolder : Obligations.HeldSlotIsLeftToItsHolder := by
  intro i s t k q hd hk hl hq h
  rw [exec_eq_finish] at h
  cases h
  rcases finish_cases s (commandBody s i) with ⟨t, ht, he⟩ | ⟨c, -, he⟩ | ⟨l, -, he⟩
  · rw [he]
    exact commandBody_heldKept s hd i t ht k q hk hl hq
  · rw [he]
    exact SameSlot.refl _
  · rw [he]
    exact s.hold_sameSlot l k

end Sys2Proof.Machine
end
section
/-! ### What a command does to DMEM (spec/20_memory.md R200, R201, R216) -/

namespace Sys2Proof.Machine

/-! #### Regions -/

theorem inRegions_iff {w : List (Nat × Nat)} {a : Nat} :
    inRegions w a = true ↔ ∃ x ∈ w, x.1 ≤ a ∧ a < x.1 + x.2 := by
  simp [inRegions]

theorem inRegions_singleton {a n c : Nat} : inRegions [(a, n)] c = true ↔ a ≤ c ∧ c < a + n := by
  simp [inRegions]

theorem not_inRegions_nil (a : Nat) : inRegions [] a = false := rfl

/-- The second DMEM content is the first with writes to the regions `w` only: every other byte is kept, and so is the
canonical form. While CFG is legal once valid, the regions lie inside DMEM. -/
structure WritesOnly (s : State) (w : List (Nat × Nat)) (m : List Host.Cell) : Prop where
  kept : ∀ a, inRegions w a = false → readByte m a = readByte s.mem a
  canonical : Memory.wf s.mem = true → Memory.wf m = true
  inside : s.ConfigInv → ∀ a, inRegions w a = true → a < s.build.dmemSize

section
variable {s : State} {w : List (Nat × Nat)}

theorem WritesOnly.nothing (s : State) : WritesOnly s [] s.mem :=
  ⟨fun _ _ => rfl, id, fun _ a ha => by rw [not_inRegions_nil] at ha; cases ha⟩

theorem WritesOnly.bytes {a n : Nat} {l : List Byte} (hl : l.length ≤ n) (hin : a + n ≤ s.build.dmemSize) :
    WritesOnly s [(a, n)] (writeBytes s.mem a l) where
  kept c hc := readByte_writeBytes_of_outside <| by
    have hout := inRegions_singleton.not.mp (Bool.eq_false_iff.mp hc)
    omega
  canonical h := writeBytes_wf l h a
  inside _ c hc := by
    have hregion := inRegions_singleton.mp hc
    omega

theorem WritesOnly.samples {l : List (Nat × C16)} (hl : ∀ x ∈ l, ∀ j < 4, inRegions w (x.1 + j) = true)
    (hin : s.ConfigInv → ∀ a, inRegions w a = true → a < s.build.dmemSize) :
    WritesOnly s w (writeC16s s.mem l) where
  kept c hc := readByte_writeC16s_of_outside fun x hx => by
    by_contra hnear
    have hj := hl x hx (c - x.1) (by omega)
    rw [show x.1 + (c - x.1) = c by omega, hc] at hj
    cases hj
  canonical h := writeC16s_wf l h
  inside := hin

/-- Where the regions written are those of the samples, each has to lie inside DMEM. -/
theorem WritesOnly.sampleRegions {l : List (Nat × C16)}
    (hin : s.ConfigInv → ∀ x ∈ l, x.1 + 4 ≤ s.build.dmemSize) :
    WritesOnly s (sampleRegions l) (writeC16s s.mem l) := by
  refine .samples (fun x hx j hj => inRegions_iff.mpr ⟨_, List.mem_map_of_mem hx, ?_, ?_⟩) fun hc a ha => ?_
  · exact Nat.le_add_right ..
  · exact Nat.add_lt_add_left hj _
  · obtain ⟨y, hy, hlow, hhigh⟩ := inRegions_iff.mp ha
    obtain ⟨x, hx, rfl⟩ := List.mem_map.mp hy
    have hbound := hin hc x hx
    dsimp only at hhigh
    omega

end

/-- A command that ends normally leaves BUSY = 0 and writes only the regions `w`. -/
structure NormalEnd (s : State) (w : List (Nat × Nat)) (t : State) : Prop where
  idle : t.port.busy = false
  writes : WritesOnly s w t.mem

section
variable {s u : State} {w : List (Nat × Nat)} {c : Int}

theorem State.ret_busy (s : State) (c : Int) : (s.ret c).port.busy = false := by
  by_cases h : s.cur < s.ports.length
  · exact congrArg Port.busy (State.modPort_port h _)
  · have hlen : (s.ret c).ports.length ≤ (s.ret c).cur := by simpa using h
    rw [State.port, List.getD_eq_default _ _ hlen]
    rfl

theorem NormalEnd.ret (h : WritesOnly s w u.mem) : NormalEnd s w (u.ret c) := ⟨u.ret_busy c, h⟩

theorem NormalEnd.answer (h : u.mem = s.mem) : NormalEnd s [] (u.ret c) := .ret (by rw [h]; exact .nothing s)

end

section
variable {P : State → Prop} {s : State}

/-- The rest of a body runs with the bytes of its descriptor. -/
theorem EndsIn.readDesc {daddr n : Nat} {f : List Byte → Except Stop State}
    (h : RegionOk s (4 * daddr) n 4 → EndsIn P (f (readBytes s.mem (4 * daddr) n))) :
    EndsIn P (Machine.readDesc s daddr n >>= f) := by
  intro t ht
  obtain ⟨bs, hbs, ha⟩ := bind_ok_iff.mp ht
  obtain ⟨hr, rfl⟩ := readDesc_ok_iff.mp hbs
  exact h hr t ha

end

/-! #### The commands that write no DMEM -/

section
variable (s : State)

theorem lockGetGranted_end (ptype frame k : Nat) {t : State} (h : t.mem = s.mem) :
    NormalEnd s [] (lockGetGranted ptype frame k t) := by
  have hretag : (t.retag frame k).mem = s.mem := by
    unfold State.retag
    split
    · exact h
    · exact h
  unfold lockGetGranted
  dsimp only
  split
  · exact .answer hretag
  · exact .answer hretag

theorem ulLockGetBody_end (ptype frame slot : Nat) :
    EndsIn (NormalEnd s []) (ulLockGetBody ptype frame slot s.unwait) :=
  .require fun _ => .require fun _ => .require fun _ => .ite (fun _ => .pure (.answer rfl)) fun _ =>
    .acquire (.pure (lockGetGranted_end s _ _ _ rfl))

theorem ulReleaseBody_end (clr handle : Nat) : EndsIn (NormalEnd s []) (ulReleaseBody clr handle s) := by
  refine .require fun _ => .checkHandle (.pure (.answer ?_))
  by_cases hclr : clr = 1
  · simp only [if_pos hclr]
    rfl
  · simp only [if_neg hclr]
    rfl

theorem puschBuildBody_end (daddr : Nat) : EndsIn (NormalEnd s []) (puschBuildBody daddr s) := by
  refine .require fun _ => .bind fun bs => .require fun _ => .require fun _ => .require fun _ => .require fun _ =>
    .require fun _ => .checkHandle <| .require fun _ => ?_
  split
  · exact .pure (.answer rfl)
  · exact .pure (.answer rfl)

/-! #### The records (spec/40_config_store.md R431, spec/42_pusch_builder.md R670, spec/41_lcp_bsr.md R502) -/

theorem ulPduReadBody_end (handle : Nat) :
    EndsIn (NormalEnd s [(s.port.arg0.toNat, 64)]) (ulPduReadBody handle s) :=
  .require fun _ => .checkHandle <| .require fun _ => .checkRegion fun hr =>
    .pure (.ret (.bytes (by simp [Entry.bytes]) hr.1.2))

theorem harqReadBody_end (pid : Nat) : EndsIn (NormalEnd s [(s.port.arg0.toNat, 12)]) (harqReadBody pid s) :=
  .require fun _ => .require fun _ => .checkRegion fun hr =>
    .pure (.ret (.bytes (by simp [harqRecord]) hr.1.2))

theorem lcReadBody_end (lcid : Nat) : EndsIn (NormalEnd s [(s.port.arg0.toNat, 24)]) (lcReadBody lcid s) :=
  .require fun _ => .require fun _ => .checkRegion fun hr =>
    .pure (.ret (.bytes (by simp [lcRecord]) hr.1.2))

end

/-! #### The BSR (spec/41_lcp_bsr.md R540 to R544) -/

theorem lcgsWithData_length_le (bytes : List Nat) : (lcgsWithData bytes).length ≤ 8 :=
  (List.length_filter_le ..).trans (List.length_range ..).le

theorem lcgsWithData_nodup (bytes : List Nat) : (lcgsWithData bytes).Nodup := List.nodup_range.filter _

/-- A BSR fits the free space, and 11 bytes. -/
theorem bsrBytes_length_le (space : Nat) (bytes best : List Nat) :
    (bsrBytes space bytes best).length ≤ min space 11 := by
  have h8 := lcgsWithData_length_le bytes
  have hcut : ∀ l : List Nat, ((lcgsWithData bytes).filter fun g => decide (g ∈ l.take (space - 3))).length ≤
      min (space - 3) 8 := fun l => by
    refine le_min ?_ ((List.length_filter_le ..).trans h8)
    have hsub := ((lcgsWithData_nodup bytes).filter fun g => decide (g ∈ l.take (space - 3))).subperm fun g hg =>
      of_decide_eq_true (List.mem_filter.mp hg).2
    exact hsub.length_le.trans (List.length_take_le ..)
  unfold bsrBytes bsrFormat
  dsimp only
  split_ifs
  · exact Nat.zero_le _
  · exact Nat.zero_le _
  · simp only [List.length_cons, List.length_map, List.length_take]
    omega
  · simp only [List.length_cons, longFields, List.length_map]
    omega
  · have hbest := hcut (lcgsByPriority bytes best)
    simp only [List.length_cons, longFields, List.length_map]
    omega
  · simp only [List.length_cons, List.length_map, List.length_take]
    omega

theorem bsrEvalBody_end (daddr : Nat) (s : State) :
    EndsIn (NormalEnd s (accesses s (.bsrEval daddr)).2) (bsrEvalBody daddr s) := by
  refine .readDesc fun _ => .require fun _ => ?_
  dsimp only [accesses]
  generalize bsrDescOfBytes (readBytes s.mem (4 * daddr) 48) = d
  have hfit := bsrBytes_length_le d.space d.lcgBytes d.lcgBestPrio
  generalize bsrBytes d.space d.lcgBytes d.lcgBestPrio = ce at hfit
  exact .checkRegion fun hr => .require fun _ => .pure (.ret (.bytes le_rfl (by omega)))

/-! #### LCP_RUN (spec/41_lcp_bsr.md R514 to R524) -/

/-- Where an LCP_RUN of `n` bytes can be: it has written no DMEM yet, and the bytes it holds fill the space taken. -/
structure LcpFilled (m : List Host.Cell) (n : Nat) (r : LcpProgress) : Prop where
  mem : r.st.mem = m
  filled : r.out.length + r.remain = n

section
variable {m : List Host.Cell} {n : Nat} {r : LcpProgress}

theorem State.rlcStatus_mem (s : State) (j : Nat) : (s.rlcStatus j).2.mem = s.mem := by rw [s.rlcStatus_frame j]

theorem State.rlcData_mem (s : State) (j n : Nat) : (s.rlcData j n).2.mem = s.mem := by rw [(s.rlcData_frame j n).2]

theorem State.rlcStatuses_mem (s : State) (l : List Nat) : (s.rlcStatuses l).2.mem = s.mem := by
  rw [(s.rlcStatuses_frame l).2]

theorem State.triggerEval_mem (s : State) (st : List (Nat × Nat)) : (s.triggerEval st).mem = s.mem := by
  unfold State.triggerEval
  split
  · rfl
  · rfl

theorem lcpServe_filled (h : LcpFilled m n r) (j : Nat) {data : List Byte} (hd : data.length + 3 ≤ r.remain) :
    LcpFilled m n (lcpServe j data r) := by
  obtain ⟨hmem, hfilled⟩ := h
  have hheader := sduHeader_length j data.length
  unfold lcpServe
  split
  · exact ⟨hmem, hfilled⟩
  · refine ⟨?_, ?_⟩
    · dsimp only
      rw [State.rlcStatus_mem, State.charge_mem, hmem]
    · simp only [List.length_append]
      omega

theorem lcpTurn_filled (h : LcpFilled m n r) (pass : Nat) (ep : Int) (j : Nat) : LcpFilled m n (lcpTurn pass ep r j) := by
  unfold lcpTurn
  split
  · exact h
  · dsimp only
    split
    · exact h
    · have hreq := lcpRequest_le r.st.build pass ep r.remain (r.st.lcEntry j)
      have hlen := (r.st.rlcData_frame j (lcpRequest r.st.build pass ep r.remain (r.st.lcEntry j)).toNat).1
      have hasked : LcpFilled m n
          { r with st := (r.st.rlcData j (lcpRequest r.st.build pass ep r.remain (r.st.lcEntry j)).toNat).2 } :=
        ⟨(State.rlcData_mem ..).trans h.mem, h.filled⟩
      refine lcpServe_filled hasked j ?_
      change _ + 3 ≤ r.remain
      omega

theorem lcpTier_filled (h : LcpFilled m n r) (pass priority : Nat) : LcpFilled m n (lcpTier pass r priority) :=
  List.foldlRecOn _ _ h fun _ hr j _ => lcpTurn_filled hr _ _ j

theorem lcpPass_filled (h : LcpFilled m n r) (pass : Nat) : LcpFilled m n (lcpPass pass r) :=
  List.foldlRecOn _ _ h fun _ hr p _ => lcpTier_filled hr pass p

theorem lcpPasses_filled (fuel pass : Nat) (h : LcpFilled m n r) : LcpFilled m n (lcpPasses fuel pass r) := by
  induction fuel generalizing pass r with
  | zero => exact h
  | succ fuel ih =>
    have hfresh : LcpFilled m n { r with served := 0 } := ⟨h.mem, h.filled⟩
    have hpass := lcpPass_filled hfresh pass
    unfold lcpPasses
    split
    · exact h
    · dsimp only
      split
      · exact hpass
      · exact ih (pass + 1) hpass

theorem lcpServeAll_filled (s : State) (d : LcpDesc) : LcpFilled s.mem d.buflen (lcpServeAll d s).1 := by
  have hmem : ((s.rlcStatuses s.channels).2.triggerEval (s.rlcStatuses s.channels).1).mem = s.mem := by
    rw [State.triggerEval_mem, State.rlcStatuses_mem]
  have hstart : LcpFilled s.mem d.buflen (lcpStart d.buflen (s.rlcStatuses s.channels).1
      ((s.rlcStatuses s.channels).2.triggerEval (s.rlcStatuses s.channels).1)) :=
    ⟨hmem, Nat.zero_add _⟩
  unfold lcpServeAll
  dsimp only
  split
  · exact ⟨hmem, hstart.filled⟩
  · exact lcpPasses_filled _ _ hstart

theorem paddingBytes_length (k : Nat) : (paddingBytes k).length = k := by
  unfold paddingBytes
  split
  · simp_all
  · simp only [List.length_cons, List.length_replicate]
    omega

end

/-- The MAC PDU that LCP_RUN writes has `buflen` bytes (spec/41_lcp_bsr.md R523, R524). -/
theorem lcpFinish_end {s : State} {d : LcpDesc} {r : LcpProgress} (h : LcpFilled s.mem d.buflen r)
    (hin : d.outAddr + d.buflen ≤ s.build.dmemSize) (trig aborted : Bool) :
    NormalEnd s [(d.outAddr, d.buflen)] (lcpFinish d trig aborted r) := by
  obtain ⟨hmem, hfilled⟩ := h
  unfold lcpFinish
  dsimp only
  refine .ret ?_
  simp only [State.setRes1_mem, State.setRes0_mem, State.triggerRemember_mem, State.rlcStatuses_mem, hmem]
  refine .bytes ?_ hin
  generalize hce : bsrBytes r.remain _ _ = ce
  have hlen : ce.length ≤ min r.remain 11 := hce ▸ bsrBytes_length_le ..
  simp only [List.length_append, paddingBytes_length]
  omega

theorem lcpRunBody_end (daddr : Nat) (s : State) :
    EndsIn (NormalEnd s (accesses s (.lcpRun daddr)).2) (lcpRunBody daddr s) := by
  refine .require fun _ => .readDesc fun _ => .require fun _ => ?_
  dsimp only [accesses]
  generalize lcpDescOfBytes (readBytes s.mem (4 * daddr) 12) = d
  refine .checkRegion fun hr => .require fun _ => .require fun _ => .require fun _ => .pure ?_
  have hfilled : LcpFilled s.mem d.buflen _ := lcpServeAll_filled (s.creditAll (s.absSlot d.frame d.slot)) d
  exact lcpFinish_end hfilled hr.1.2 _ _

/-! #### The LLR commands (spec/45_llr.md R903, R904) -/

/-- Strings of one length, one after the other. -/
theorem length_flatMap_of_forall {α β : Type} {f : α → List β} {n : Nat} (l : List α)
    (h : ∀ a ∈ l, (f a).length = n) : (l.flatMap f).length = n * l.length := by
  rw [List.length_flatMap, List.map_congr_left h, List.map_const', List.sum_replicate, smul_eq_mul, Nat.mul_comm]

theorem llrChain_length (m : AbsMin) (v : C16) (mags : List C16) : (llrChain m v mags).length = mags.length + 1 := by
  induction mags generalizing v with
  | nil => rfl
  | cons mag rest ih => rw [llrChain, List.length_cons, ih, List.length_cons]

theorem llrBytes_length (m : AbsMin) (mem : List Host.Cell) (rx : Nat) (mags : List Nat) (nbRe : Nat) :
    (llrBytes m mem rx mags nbRe).length = 4 * (mags.length + 1) * nbRe := by
  rw [llrBytes, length_flatMap_of_forall (n := 4 * (mags.length + 1)), List.length_range]
  intro i _
  rw [length_flatMap_of_forall (n := 4) _ fun x _ => c16Bytes_length x, llrOfRe, llrChain_length, List.length_map]

theorem llrBody_end {nm : Nat} (hnm : nm ≤ 3) (daddr : Nat) (s : State) :
    EndsIn (NormalEnd s (llrRegions nm daddr s).2) (llrBody nm daddr s) := by
  refine .readDesc fun _ => .require fun _ => .bind fun _ => .bind fun _ => ?_
  have htake : ((llrDescOfBytes (readBytes s.mem (4 * daddr) 24)).magAddr.take nm).length = nm := by
    simpa [llrDescOfBytes] using hnm
  dsimp only [llrRegions]
  generalize llrDescOfBytes (readBytes s.mem (4 * daddr) 24) = d at htake
  refine .checkRegion fun hr => .require fun _ => .pure (.ret (.bytes ?_ hr.1.2))
  rw [llrBytes_length, htake]
  exact Nat.le_of_eq (by ring)

end Sys2Proof.Machine
end
section
/-! ### The kernels' writes to DMEM (spec/43_re_mapper.md R714, spec/44_precoding_transform.md R810 to R833) -/

namespace Sys2Proof.Machine

/-! #### LAYER_MAP and TP_DFT -/

theorem layerMapBody_end (daddr : Nat) (s : State) :
    EndsIn (NormalEnd s (layerMapRegions daddr s).2) (layerMapBody daddr s) := by
  refine .readDesc fun _ => .require fun hd => .require fun _ => ?_
  have houts : (layerMapDescOfBytes (readBytes s.mem (4 * daddr) 28)).outAddr.length = 4 := rfl
  dsimp only [layerMapRegions]
  generalize layerMapDescOfBytes (readBytes s.mem (4 * daddr) 28) = d at hd houts
  obtain ⟨-, -, h4⟩ := hd
  intro t ht
  obtain ⟨_, hregions, ht⟩ := bind_ok_iff.mp ht
  obtain ⟨-, hfull⟩ := checkLayerRegions_ok_iff.mp hregions
  refine EndsIn.require (fun _ => .pure (.ret (.samples (fun x hx j hj => ?_) fun _ a ha => ?_))) t ht
  · obtain ⟨i, hi, hx⟩ := List.mem_flatMap.mp hx
    obtain ⟨v, hv, rfl⟩ := List.mem_map.mp hx
    have hi := List.mem_range.mp hi
    rw [layerRegions_eq (by omega)]
    exact inRegions_iff.mpr ⟨_, List.mem_map_of_mem hv, by dsimp only; omega, by dsimp only; omega⟩
  · obtain ⟨y, hy, hlow, hhigh⟩ := inRegions_iff.mp ha
    obtain ⟨b, hb, rfl⟩ := List.mem_map.mp hy
    dsimp only at hlow hhigh
    have hn : d.nIn ≠ 0 := fun h0 => by
      rw [h0, Nat.zero_div] at hhigh
      omega
    obtain ⟨-, hout⟩ := hfull hn
    have hregion := hout b hb
    omega

theorem tpDftBody_end (daddr : Nat) (s : State) :
    EndsIn (NormalEnd s (tpDftRegions daddr s).2) (tpDftBody daddr s) := by
  refine .readDesc fun _ => ?_
  dsimp only [tpDftRegions]
  generalize tpDescOfBytes (readBytes s.mem (4 * daddr) 16) = d
  refine .bind fun _ => .require fun _ => .require fun _ => .require fun _ => .bind fun _ => .checkRegion fun hr =>
    .require fun _ => .pure (.ret (.samples (fun x hx j hj => ?_) fun _ a ha => ?_))
  · obtain ⟨i, hi, hx⟩ := List.mem_flatMap.mp hx
    obtain ⟨k, hk, rfl⟩ := List.mem_map.mp hx
    have hi := List.mem_range.mp hi
    have hk := List.mem_range.mp hk
    generalize 12 * (readPdu s d.pduAddr).rbSize = m at hi hk
    have hblock : (i + 1) * m ≤ d.n := (Nat.mul_le_mul_right m hi).trans (Nat.div_mul_le_self ..)
    rw [Nat.succ_mul] at hblock
    exact inRegions_singleton.mpr ⟨by dsimp only; omega, by dsimp only; omega⟩
  · have hregion := inRegions_singleton.mp ha
    omega

/-! #### MAP_PUSCH and PRECODE: the REs of the allocation -/

theorem Bundle.mem_res {b : Bundle} {l k : Nat} :
    (l, k) ∈ b.res ↔ (b.startSymbol ≤ l ∧ l < b.startSymbol + b.len) ∧ k < b.nSc := by
  simp [Bundle.res]

/-- Every value MAP_PUSCH writes is that of a layer at an RE of the list. -/
theorem Bundle.mem_cells {b : Bundle} {m : NegMin} {t : Streams} {l : List (Nat × Nat)} {next : Nat}
    {x : Nat × Nat × Nat × C16} (hx : x ∈ b.cells m t l next) : x.1 < b.layers ∧ (x.2.1, x.2.2.1) ∈ l := by
  induction l generalizing next with
  | nil => cases hx
  | cons re rest ih =>
    rcases List.mem_append.mp hx with hx | hx
    · obtain ⟨v, hv, rfl⟩ := List.mem_map.mp hx
      exact ⟨List.mem_range.mp hv, List.mem_cons_self⟩
    · obtain ⟨hlayer, hre⟩ := ih hx
      exact ⟨hlayer, List.mem_cons_of_mem _ hre⟩

/-- The sample at a buffer index of one of the 14 symbols of a plane lies inside the grid (spec/20_memory.md R206). -/
theorem gridAddr_inside {base fft planes g l idx : Nat} (hg : g < planes) (hl : l < 14) (hidx : idx < fft) :
    gridAddr base fft g l idx + 4 ≤ base + 4 * (planes * 14 * fft) := by
  have hrow : (g * 14 + l + 1) * fft ≤ planes * 14 * fft := Nat.mul_le_mul_right fft (by omega)
  rw [Nat.succ_mul] at hrow
  unfold gridAddr
  omega

/-- The symbols of a PUSCH PDU that passes its checks lie in the slot (spec/43_re_mapper.md R701). -/
theorem Pdu.symbols_le {c : CfgRegs} {p : Pdu} (h : p.legal c = true) : p.startSymbol + p.nrOfSymbols ≤ 14 := by
  obtain ⟨halloc, -⟩ := (p.legal_iff c).mp h
  obtain ⟨-, -, -, hsymbols⟩ := (p.allocLegal_iff c).mp halloc
  exact hsymbols

/-- A legal CFG has at least 12 subcarriers (spec/10_state.md R108). -/
theorem CfgRegs.fftSize_pos {c : CfgRegs} (h : c.legal = true) : 0 < c.fftSize := by
  obtain ⟨-, -, hrb, -, hfft, -⟩ := c.legal_iff.mp h
  omega

/-- An RE of the allocation of a legal PDU under a legal CFG has its address inside a grid (R206, R710). -/
theorem gridAddr_res_inside {c : CfgRegs} {p : Pdu} (hc : c.legal = true) (hp : p.legal c = true) {l k : Nat}
    (hre : (l, k) ∈ (bundleOf c p).res) {g planes : Nat} (hg : g < planes) (base : Nat) :
    gridAddr base c.fftSize g l ((bundleOf c p).idx k) + 4 ≤ base + 4 * (planes * 14 * c.fftSize) := by
  obtain ⟨⟨-, hl⟩, -⟩ := Bundle.mem_res.mp hre
  have hsymbols := Pdu.symbols_le hp
  have hl' : l < p.startSymbol + p.nrOfSymbols := hl
  exact gridAddr_inside hg (by omega) (Nat.mod_lt _ (CfgRegs.fftSize_pos hc))

theorem mapPuschBody_end (daddr : Nat) (s : State) :
    EndsIn (NormalEnd s (mapPuschRegions daddr s).2) (mapPuschBody daddr s) := by
  refine .require fun hv => .readDesc fun _ => ?_
  dsimp only [mapPuschRegions, mapBundleAt, mapPduAt, mapDescAt]
  generalize mapDescOfBytes (readBytes s.mem (4 * daddr) 36) = d
  refine .bind fun _ => .require fun hp => .bind fun _ => .bind fun _ => .bind fun _ => .checkRegion fun hr =>
    .require fun _ => .require fun _ => .pure (.ret (.sampleRegions fun hc x hx => ?_))
  obtain ⟨w, hw, rfl⟩ := List.mem_map.mp hx
  obtain ⟨hlayer, hre⟩ := Bundle.mem_cells hw
  exact (gridAddr_res_inside (hc.1 hv) hp hre hlayer _).trans hr.1.2

theorem precodeBody_end (daddr : Nat) (s : State) :
    EndsIn (NormalEnd s (precodeRegions daddr s).2) (precodeBody daddr s) := by
  refine .require fun hv => .readDesc fun _ => ?_
  dsimp only [precodeRegions]
  generalize precodeDescOfBytes (readBytes s.mem (4 * daddr) 12) = d
  refine .bind fun _ => .require fun hp => .require fun _ => .require fun _ => .bind fun _ => .checkRegion fun hr =>
    .require fun _ => .pure (.ret (.sampleRegions fun hc x hx => ?_))
  obtain ⟨re, hre, hx⟩ := List.mem_flatMap.mp hx
  obtain ⟨a, ha, rfl⟩ := List.mem_map.mp hx
  exact (gridAddr_res_inside (hc.1 hv) hp hre (List.mem_range.mp ha) _).trans hr.1.2

end Sys2Proof.Machine
end
section
/-! ### DMEM after a command and after a step (spec/20_memory.md R200, R201, R216, R223) -/

namespace Sys2Proof.Machine

/-- Every command that ends normally writes only the regions that `accesses` gives it. -/
theorem commandBody_end (s : State) (i : Instr) : EndsIn (NormalEnd s (accesses s i).2) (commandBody s i) := by
  cases i with
  | cfgWrite daddr =>
    exact .bind fun _ => .require fun _ => .require fun _ => .require fun _ => .pure (.answer rfl)
  | init => exact .require fun _ => .require fun _ => .pure (.answer rfl)
  | lcConfig daddr => exact .require fun _ => .bind fun _ => .require fun _ => .pure (.answer rfl)
  | taExpiry =>
    exact .require fun _ => .require fun _ => .ite (fun _ => .error _) fun _ => .pure (.answer rfl)
  | ulLockGet ptype frame slot => exact ulLockGetBody_end s ptype frame slot
  | ulRelease clr handle => exact ulReleaseBody_end s clr handle
  | ulRemoveLast handle => exact .require fun _ => .checkHandle <| .require fun _ => .pure (.answer rfl)
  | ulIterGet _ slot =>
    exact .require fun _ => .require fun _ => .ite (fun _ => .pure (.answer rfl)) fun _ =>
      .acquire (.pure (.answer rfl))
  | ulPduWrite handle =>
    exact .require fun _ => .checkHandle <| .require fun _ => .bind fun _ => .pure (.answer rfl)
  | ulPduRead handle => exact ulPduReadBody_end s handle
  | grantTarget daddr =>
    exact .require fun _ => .bind fun _ => .require fun _ => .ite (fun _ => .pure (.answer rfl)) fun _ =>
      .ite (fun _ => .pure (.answer rfl)) fun _ => .require fun _ => .pure (.answer rfl)
  | puschBuild daddr => exact puschBuildBody_end s daddr
  | harqRead index => exact harqReadBody_end s index
  | lcpRun daddr => exact lcpRunBody_end daddr s
  | bsrEval daddr => exact bsrEvalBody_end daddr s
  | lcRead index => exact lcReadBody_end s index
  | layerMap daddr => exact layerMapBody_end daddr s
  | tpDft daddr => exact tpDftBody_end daddr s
  | mapPusch daddr => exact mapPuschBody_end daddr s
  | precode daddr => exact precodeBody_end daddr s
  | llr16Qam daddr => exact llrBody_end (by decide) daddr s
  | llr64Qam daddr => exact llrBody_end (by decide) daddr s
  | llr256Qam daddr => exact llrBody_end (by decide) daddr s

theorem Effect.halted {s t : State} (h : Effect s t) : t.halted = s.halted := by
  cases h with
  | quiet g => exact g.halted
  | config _ _ frame => exact frame.halted
  | init _ _ frame => exact frame.halted
  | tables _ _ frame => exact frame.halted
  | channels _ _ _ frame => exact frame.halted

/-- A command ends normally, having written no more than its regions, or it leaves DMEM alone: it has halted the PTB
or is held (spec/60_exceptions.md R1000, R1020, R1030). -/
theorem exec_dmem {i : Instr} {s t : State} (hh : s.halted = false) (h : exec i s = .next t) :
    (t.halted = false ∧ NormalEnd s (accesses s i).2 t) ∨ (t.mem = s.mem ∧ (t.halted = true ∨ t.port = s.port)) := by
  rw [exec_eq_finish] at h
  cases h
  rcases finish_cases s (commandBody s i) with ⟨t, ht, he⟩ | ⟨c, -, he⟩ | ⟨l, -, he⟩
  · rw [he]
    exact .inl ⟨(commandBody_effect s i t ht).halted.trans hh, commandBody_end s i t ht⟩
  · rw [he]
    exact .inr ⟨rfl, .inl rfl⟩
  · rw [he, (s.hold_eq l).1]
    exact .inr ⟨rfl, .inr rfl⟩

/-- Settles O16: a normal end writes its regions only, and a fault or a hold leaves DMEM as it was. -/
theorem commandsWriteOnlyTheirFootprint : Obligations.CommandsWriteOnlyTheirFootprint := by
  intro i s t hh h a ha
  rcases exec_dmem hh h with ⟨hhalt, hidle, hwrites⟩ | ⟨hmem, -⟩
  · refine hwrites.kept a (ha.resolve_right ?_)
    rw [hhalt, hidle]
    decide
  · rw [hmem]

/-! #### The step of the machine -/

/-- What the command of a turn has written by the end of it, whatever it read: the regions of `stepAccesses`. -/
theorem runCommand_writesOnly {s t : State} (hh : s.halted = false) (hb : s.port.busy = true)
    (h : runCommand s = .next t) : WritesOnly s (stepAccesses s t).2 t.mem := by
  have untouched : t.mem = s.mem → t.halted = true ∨ t.port = s.port → WritesOnly s (stepAccesses s t).2 t.mem := by
    intro hmem hend
    have hnone : (stepAccesses s t).2 = [] := by
      cases hhalt : t.halted with
      | true => exact stepAccesses_of_halted hhalt
      | false =>
        have hport := hend.resolve_left (by simp [hhalt])
        rw [stepAccesses_of_held hhalt (by rw [hport, hb])]
    rw [hnone, hmem]
    exact .nothing s
  unfold runCommand at h
  cases hf : s.fetch with
  | error code =>
    rw [hf] at h
    cases h
    exact untouched rfl (.inl rfl)
  | ok i =>
    rw [hf] at h
    rcases exec_dmem hh h with ⟨hhalt, hidle, hwrites⟩ | ⟨hmem, hend⟩
    · rw [stepAccesses_writes hf, if_pos ⟨hhalt, hidle⟩]
      exact hwrites
    · exact untouched hmem hend

theorem readByte_of_not_listed {m : List Host.Cell} {a : Nat} (h : ∀ c ∈ m, c.1 ≠ a) :
    readByte m a = unlistedByte := by
  induction m with
  | nil => rfl
  | cons x rest ih =>
    obtain ⟨hx, hrest⟩ := List.forall_mem_cons.mp h
    exact (if_neg hx).trans (ih hrest)

/-- In the canonical form a listed byte reads as it is listed. -/
theorem readByte_of_mem {m : List Host.Cell} (hm : m.Pairwise fun x y => x.1 < y.1) {c : Host.Cell} (hc : c ∈ m) :
    readByte m c.1 = c.2 := by
  induction m with
  | nil => cases hc
  | cons x rest ih =>
    obtain ⟨hx, hrest⟩ := List.pairwise_cons.mp hm
    rcases List.mem_cons.mp hc with rfl | hc
    · exact if_pos rfl
    · exact (if_neg (hx c hc).ne).trans (ih hrest hc)

/-- DMEM in its canonical form lists no byte from DMEM_SIZE on exactly when every such byte reads as an unlisted
one. -/
theorem State.memInv_iff {s : State} : s.MemInv ↔
    Memory.wf s.mem = true ∧ ∀ a, s.build.dmemSize ≤ a → readByte s.mem a = unlistedByte := by
  refine and_congr_right fun hwf => ⟨fun h a ha => readByte_of_not_listed fun c hc => ?_, fun h c hc => ?_⟩
  · exact ((h c hc).trans_le ha).ne
  · obtain ⟨hlisted, hsorted⟩ := (Memory.wf_iff s.mem).mp hwf
    by_contra hlt
    exact hlisted c hc (readByte_of_mem hsorted hc ▸ h c.1 (not_lt.mp hlt))

/-- A turn keeps DMEM canonical and within its size, whatever bytes are drawn in it: a drawn byte that the command
did not write gets its stored value back (R223). -/
theorem takeTurn_memInv {s t : State} {p : Nat} {drawn : List Host.Cell} (hc : s.ConfigInv) (hm : s.MemInv)
    (h : takeTurn p drawn s = .next t) : t.MemInv := by
  cases he : s.enabled p with
  | false =>
    rw [takeTurn_of_not_enabled he] at h
    cases h
    exact hm
  | true =>
    obtain ⟨hh, hb, -⟩ := (s.enabled_iff p).mp he
    obtain ⟨u, hu, hend⟩ := runCommand_end (s.turnStart p drawn)
    rw [takeTurn_of_enabled he drawn hu] at h
    cases h
    obtain ⟨hkept, hcanonical, hinside⟩ := runCommand_writesOnly (s := s.turnStart p drawn) hh hb hu
    obtain ⟨hwf, hsize⟩ := State.memInv_iff.mp hm
    refine State.memInv_iff.mpr ⟨settle_wf _ _ _ (hcanonical (overlay_wf drawn hwf)), fun a ha => ?_⟩
    have hstored : readByte s.mem a = unlistedByte := hsize a (hend.flagsKept.build ▸ ha)
    have hout : inRegions (stepAccesses (s.turnStart p drawn) u).2 a = false :=
      Bool.eq_false_iff.mpr fun hin => absurd (hinside hc a hin) (not_lt.mpr (hend.flagsKept.build ▸ ha))
    change readByte (settle drawn _ s.mem u.mem) a = unlistedByte
    rw [readByte_settle]
    split
    · exact hstored
    · rename_i hdrawn
      rw [hkept a hout]
      change readByte (overlay drawn s.mem) a = unlistedByte
      rw [readByte_overlay, List.find?_eq_none.mpr, Option.map_none, Option.getD_none, hstored]
      exact fun c hcd hca => hdrawn ⟨⟨c, List.mem_reverse.mp hcd, of_decide_eq_true hca⟩, hout⟩

/-- Settles O24: an agent pokes a byte that exists, and a turn writes inside DMEM and puts back what it drew. -/
theorem stepKeepsDmemCanonical : Obligations.StepKeepsDmemCanonical := by
  intro s t hc hm h
  unfold step at h
  split at h
  case h_1 hi =>
    split at h
    · cases h
      exact hm
    · exact takeTurn_memInv (s := { s with draws := s.draws + 1 }) hc hm h
  case h_2 p k v rest hi =>
    split at h
    · cases h
      exact hm
    · cases h
  case h_3 p w rest hi =>
    split at h
    · cases h
      unfold State.writeCmd
      split
      · exact hm
      · exact hm
    · cases h
  case h_4 p a b rest hi =>
    split at h
    · cases h
    · split at h
      · rename_i ha
        cases h
        obtain ⟨hwf, hbelow⟩ := hm
        refine ⟨writeByte_wf hwf a b, fun c hcell => ?_⟩
        rcases mem_writeByte_addr hcell with rfl | hcell
        · exact ha
        · exact hbelow c hcell
      · cases h
  case h_5 p drawn rest hi =>
    split at h
    · exact takeTurn_memInv (s := { s with inputs := rest }) hc hm h
    · cases h
  case h_6 rest hi =>
    cases h
    exact hm

end Sys2Proof.Machine
end
section
/-! ### Command words (spec/30_encoding.md R300 to R306) -/

namespace Sys2Proof

-- One proof after another, so that the threads of the whole text stay within the memory limit.
set_option Elab.async false

open Machine
open Laws.OpcodeRow (opcode fields Statement)

/-! #### The formats (R301, R303) -/

section
variable {n r : Nat} {i j : Instr} {w : Word}

/-- The reserved bits are the only reason to refuse a word whose opcode is legal. -/
theorem checked_ok_iff : checked r i = .ok j ↔ r = 0 ∧ i = j := by
  unfold checked
  split <;> simp [*]

theorem checked_reserved_iff : checked r i = .error .reservedField ↔ r ≠ 0 := by
  unfold checked
  split <;> simp [*]

theorem checked_ne_illegal : checked r i ≠ .error .illegalCommand := by
  unfold checked
  split <;> simp

theorem bits_lt (n hi lo : Nat) : bits n hi lo < 2 ^ (hi + 1 - lo) := Nat.mod_lt _ (by positivity)

/-! #### A word decodes to the command whose opcode and fields it carries (R301, R305) -/

/-- The word carries the opcode of a command and, in every field of its format, the field's value: 0 where the field is
reserved or unused. -/
def Carries (w : Word) (i : Instr) : Prop :=
  bits w.toNat 31 26 = opcode i ∧ ∀ f ∈ fields i, bits w.toNat f.1 f.2.1 = f.2.2

theorem carries_of_decode (h : decode w = .ok i) : Carries w i := by
  dsimp only [decode] at h
  split at h
  case h_24 => cases h
  all_goals
    rename_i hop
    obtain ⟨hres, rfl⟩ := checked_ok_iff.mp h
    refine ⟨hop, ?_⟩
    simp only [fields, List.forall_mem_cons, List.not_mem_nil, false_imp_iff, implies_true, true_and, and_true]
    omega

theorem decode_of_carries (h : Carries w i) : decode w = .ok i := by
  obtain ⟨hop, hf⟩ := h
  cases i
  all_goals
    simp only [fields, List.forall_mem_cons, List.not_mem_nil, false_imp_iff, implies_true, and_true] at hf
    simp only [decode, hop, opcode]
    refine checked_ok_iff.mpr ⟨by omega, ?_⟩
    simp only [hf]

end

/-- Every well-formed command's word carries it. -/
theorem statement_of_instr : ∀ i : Instr, Statement i
  | .cfgWrite daddr => Laws.OpcodeRow.cfgWrite daddr
  | .init => Laws.OpcodeRow.init
  | .lcConfig daddr => Laws.OpcodeRow.lcConfig daddr
  | .taExpiry => Laws.OpcodeRow.taExpiry
  | .ulLockGet ptype frame slot => Laws.OpcodeRow.ulLockGet ptype frame slot
  | .ulRelease clr handle => Laws.OpcodeRow.ulRelease clr handle
  | .ulRemoveLast handle => Laws.OpcodeRow.ulRemoveLast handle
  | .ulIterGet frame slot => Laws.OpcodeRow.ulIterGet frame slot
  | .ulPduWrite handle => Laws.OpcodeRow.ulPduWrite handle
  | .ulPduRead handle => Laws.OpcodeRow.ulPduRead handle
  | .grantTarget daddr => Laws.OpcodeRow.grantTarget daddr
  | .puschBuild daddr => Laws.OpcodeRow.puschBuild daddr
  | .harqRead index => Laws.OpcodeRow.harqRead index
  | .lcpRun daddr => Laws.OpcodeRow.lcpRun daddr
  | .bsrEval daddr => Laws.OpcodeRow.bsrEval daddr
  | .lcRead index => Laws.OpcodeRow.lcRead index
  | .layerMap daddr => Laws.OpcodeRow.layerMap daddr
  | .tpDft daddr => Laws.OpcodeRow.tpDft daddr
  | .mapPusch daddr => Laws.OpcodeRow.mapPusch daddr
  | .precode daddr => Laws.OpcodeRow.precode daddr
  | .llr16Qam daddr => Laws.OpcodeRow.llr16Qam daddr
  | .llr64Qam daddr => Laws.OpcodeRow.llr64Qam daddr
  | .llr256Qam daddr => Laws.OpcodeRow.llr256Qam daddr

/-- Settles O1: the word of a well-formed command carries its opcode and fields, and such a word decodes to it. -/
theorem decodeOfEncode : Obligations.DecodeOfEncode := fun i h => decode_of_carries (statement_of_instr i h)

/-! #### The fields of a format cover the word (R301) -/

/-- The fields stand side by side from bit `top - 1` down to bit 0. -/
def Tile : Nat → List (Nat × Nat × Nat) → Prop
  | top, [] => top = 0
  | top, f :: rest => f.1 + 1 = top ∧ f.2.1 ≤ top ∧ Tile f.2.1 rest

/-- The number that fields spell, each at its place. -/
def spelled (l : List (Nat × Nat × Nat)) : Nat := (l.map fun f => f.2.2 * 2 ^ f.2.1).sum

theorem spelled_eq_mod {n : Nat} {l : List (Nat × Nat × Nat)} {top : Nat} (ht : Tile top l)
    (hf : ∀ f ∈ l, bits n f.1 f.2.1 = f.2.2) : spelled l = n % 2 ^ top := by
  induction l generalizing top with
  | nil =>
    obtain rfl : top = 0 := ht
    rw [pow_zero, Nat.mod_one]
    rfl
  | cons f rest ih =>
    obtain ⟨htop, hle, hrest⟩ := ht
    obtain ⟨hval, hvals⟩ := List.forall_mem_cons.mp hf
    have hsplit : 2 ^ top = 2 ^ f.2.1 * 2 ^ (f.1 + 1 - f.2.1) := by rw [← pow_add, htop, Nat.add_sub_cancel' hle]
    calc spelled (f :: rest) = f.2.2 * 2 ^ f.2.1 + spelled rest := List.sum_cons
      _ = bits n f.1 f.2.1 * 2 ^ f.2.1 + n % 2 ^ f.2.1 := by rw [hval, ih hrest hvals]
      _ = n % 2 ^ top := by rw [hsplit, Nat.mod_mul, bits, Nat.mul_comm, Nat.add_comm]

theorem fields_tile (i : Instr) : Tile 26 (fields i) := by
  cases i <;> simp [fields, Tile]

/-- A command is well-formed exactly when every operand fits its field. -/
theorem wf_iff_fields_fit (i : Instr) : i.wf = true ↔ ∀ f ∈ fields i, f.2.2 < 2 ^ (f.1 + 1 - f.2.1) := by
  cases i <;> simp [fields, Instr.wf, and_assoc]

theorem encode_eq_wordOf_spelled (i : Instr) : encode i = wordOf (opcode i) (spelled (fields i)) := by
  cases i <;> simp [fields, opcode, encode, spelled, Nat.add_assoc]

theorem wordOf_bits (w : Word) : wordOf (bits w.toNat 31 26) (w.toNat % 2 ^ 26) = w := by
  have hw := w.isLt
  refine BitVec.eq_of_toNat_eq ?_
  rw [Laws.OpcodeRow.wordOf_toNat (bits_lt ..) (Nat.mod_lt _ (by decide))]
  simp only [bits, Nat.reduceAdd, Nat.reduceSub, Nat.reducePow] at hw ⊢
  omega

/-- A word that carries a command is its command word. -/
theorem encode_of_carries {w : Word} {i : Instr} (h : Carries w i) : i.wf = true ∧ encode i = w := by
  obtain ⟨hop, hf⟩ := h
  constructor
  · exact (wf_iff_fields_fit i).mpr fun f hmem => hf f hmem ▸ bits_lt ..
  · rw [encode_eq_wordOf_spelled, spelled_eq_mod (fields_tile i) hf, ← hop, wordOf_bits]

/-- Settles O2: the word that decodes carries the command, opcode and every bit below it. -/
theorem encodeOfDecode : Obligations.EncodeOfDecode := fun _ _ h => encode_of_carries (carries_of_decode h)

/-! #### Illegal opcodes (R306) -/

/-- No format refuses a word as illegal, so exactly the opcodes without a row do. -/
theorem decode_illegal_iff (w : Word) : decode w = .error .illegalCommand ↔
    bits w.toNat 31 26 ∈ [0x00, 0x05, 0x06, 0x07, 0x0E, 0x0F, 0x13, 0x17, 0x1C, 0x1D, 0x1E, 0x1F] ∨
      0x23 ≤ bits w.toNat 31 26 := by
  dsimp only [decode]
  split
  case h_24 =>
    refine iff_of_true rfl ?_
    simp only [imp_false] at *
    simp only [List.mem_cons, List.not_mem_nil, or_false]
    omega
  all_goals
    rename_i hop
    rw [hop]
    exact iff_of_false checked_ne_illegal (by decide)

theorem runCommand_of_illegal {s : State} (h : decode s.port.cmd = .error .illegalCommand) :
    runCommand s = .next (s.raiseFault .illegalCommand) := by
  rw [runCommand, State.fetch, h]

theorem runCommand_of_reserved {s : State} (h : decode s.port.cmd = .error .reservedField) :
    runCommand s = .next (s.raiseFault .reservedField) := by
  rw [runCommand, State.fetch, h]

/-- Settles O3. -/
theorem illegalOpcodesFault : Obligations.IllegalOpcodesFault :=
  ⟨decode_illegal_iff, (decode_illegal_iff 0).mpr (by decide), fun _ => runCommand_of_illegal⟩

/-! #### Reserved bits (R303) -/

/-- Two reserved fields checked together are refused where one of them is not 0. -/
theorem checked_add_reserved_iff {x y : Nat} {i : Instr} :
    checked (x + y) i = .error .reservedField ↔ x ≠ 0 ∨ y ≠ 0 := by
  rw [checked_reserved_iff]
  omega

/-- Settles O4: each format checks its own reserved bits and refuses a word for nothing else. -/
theorem reservedBitsFault : Obligations.ReservedBitsFault := by
  refine ⟨?desc, ?none, ?index, ?handle, fun w h => ?release, fun w h => ?lockGet, fun w h => ?iterGet,
    fun _ => runCommand_of_reserved⟩
  case desc | none | index | handle =>
    intro w h
    simp only [List.mem_cons, List.not_mem_nil, or_false] at h
    casesm* _ ∨ _
    all_goals
      simp only [decode, *]
      exact checked_reserved_iff
  case release =>
    simp only [decode, h]
    exact checked_reserved_iff
  case lockGet | iterGet =>
    simp only [decode, h]
    exact checked_add_reserved_iff

/-- Settles O5: each word is the word of its command. -/
theorem knownWordsDecode : Obligations.KnownWordsDecode :=
  ⟨decodeOfEncode (.cfgWrite 0) rfl, decodeOfEncode (.ulLockGet 4 1023 19) rfl,
    decodeOfEncode (.ulRelease 1 0x0500) rfl, decodeOfEncode (.ulIterGet 0 5) rfl,
    decodeOfEncode (.harqRead 3) rfl, decodeOfEncode (.lcpRun 0x24) rfl, decodeOfEncode (.llr256Qam 0x1810) rfl⟩

end Sys2Proof
end
section
/-! ### The fields of a byte string (spec/20_memory.md R203, spec/30_encoding.md R330 to R343) -/

namespace Sys2Proof.Machine

-- One proof after another, so that the threads of the whole text stay within the memory limit.
set_option Elab.async false

/-! #### A field of a record -/

/-- The little-endian number in the `n` bytes at an offset of a byte string. -/
def fieldAt (bs : List Byte) (off n : Nat) : Nat := leNat ((bs.drop off).take n)

theorem leNat_take_succ (l : List Byte) (n : Nat) :
    leNat (l.take (n + 1)) = (l.getD 0 0).toNat + 256 * leNat ((l.drop 1).take n) := by
  cases l with
  | nil => simp [leNat]
  | cons b rest => simp [leNat]

theorem fieldAt_succ (bs : List Byte) (off n : Nat) :
    fieldAt bs off (n + 1) = u8 bs off + 256 * fieldAt bs (off + 1) n := by
  rw [fieldAt, leNat_take_succ, List.drop_drop, u8, fieldAt]
  simp [List.getD_eq_getElem?_getD]

theorem fieldAt_zero (bs : List Byte) (off : Nat) : fieldAt bs off 0 = 0 := by simp [fieldAt, leNat]

theorem u8_eq_fieldAt (bs : List Byte) (off : Nat) : u8 bs off = fieldAt bs off 1 := by
  rw [fieldAt_succ, fieldAt_zero, Nat.mul_zero, Nat.add_zero]

theorem u16_eq_fieldAt (bs : List Byte) (off : Nat) : u16 bs off = fieldAt bs off 2 := by
  rw [fieldAt_succ, u16, u8_eq_fieldAt bs (off + 1)]

theorem u32_eq_fieldAt (bs : List Byte) (off : Nat) : u32 bs off = fieldAt bs off 4 := by
  rw [u32, u16, u16_eq_fieldAt, fieldAt_succ bs off, fieldAt_succ bs (off + 1)]
  have hoff : off + 1 + 1 = off + 2 := rfl
  rw [hoff]
  omega

/-- The bytes of a record whose fields, each a width and a value, stand one after another. -/
def layout (fields : List (Nat × Nat)) : List Byte := fields.foldl (fun bs f => bs ++ leBytes f.1 f.2) []

/-- The width and value of the field that stands at an offset of a record. -/
def fieldFrom : List (Nat × Nat) → Nat → Option (Nat × Nat)
  | [], _ => none
  | f :: rest, off => if off = 0 then some f else if off < f.1 then none else fieldFrom rest (off - f.1)

theorem fieldFrom_here (n v : Nat) (rest : List (Nat × Nat)) : fieldFrom ((n, v) :: rest) 0 = some (n, v) := rfl

/-- A field after the first is looked for in the rest of the record. -/
theorem fieldFrom_later (n v : Nat) (rest : List (Nat × Nat)) {off : Nat} (h0 : 0 < n) (h : n ≤ off) :
    fieldFrom ((n, v) :: rest) off = fieldFrom rest (off - n) := by
  rw [fieldFrom, if_neg (by omega), if_neg (not_lt.mpr h)]

theorem layout_eq_flatMap (fields : List (Nat × Nat)) : layout fields = fields.flatMap fun f => leBytes f.1 f.2 :=
  List.foldl_append_eq_append.trans (List.nil_append _)

theorem layout_cons (f : Nat × Nat) (rest : List (Nat × Nat)) :
    layout (f :: rest) = leBytes f.1 f.2 ++ layout rest := by
  rw [layout_eq_flatMap, layout_eq_flatMap, List.flatMap_cons]

/-- A field of a record reads as its value, cut to its width. -/
theorem fieldAt_layout {fields : List (Nat × Nat)} {off n v : Nat} (h : fieldFrom fields off = some (n, v)) :
    fieldAt (layout fields) off n = v % 256 ^ n := by
  induction fields generalizing off with
  | nil => cases h
  | cons f rest ih =>
    unfold fieldFrom at h
    rw [layout_cons]
    split_ifs at h with hhere hinside
    · cases h
      rw [hhere, fieldAt, List.drop_zero, List.take_left' (leBytes_length n v), leNat_leBytes]
    · have hlen : (leBytes f.1 f.2).length ≤ off := by simpa using hinside
      rw [← ih h, fieldAt, List.drop_append, List.drop_of_length_le hlen, leBytes_length, List.nil_append, fieldAt]

/-! #### A field in DMEM -/

section
variable (m : List Host.Cell) (a : Nat) {off n len : Nat}

theorem readBytes_drop_take (h : off + n ≤ len) :
    ((readBytes m a len).drop off).take n = readBytes m (a + off) n := by
  obtain ⟨tail, rfl⟩ := Nat.exists_eq_add_of_le h
  rw [readBytes_add, readBytes_add, List.append_assoc, List.drop_left' (by simp), List.take_left' (by simp)]

theorem fieldAt_readBytes (h : off + n ≤ len) : fieldAt (readBytes m a len) off n = memRead m (a + off) n := by
  rw [fieldAt, readBytes_drop_take m a h, memRead]

/-- A field of a record written to DMEM. -/
theorem memRead_writeBytes {l : List Byte} (h : off + n ≤ l.length) :
    memRead (writeBytes m a l) (a + off) n = fieldAt l off n := by
  rw [← fieldAt_readBytes _ _ h, readBytes_writeBytes]

theorem sameOutside_writeBytes {l : List Byte} (h : l.length = n) : SameOutside m (writeBytes m a l) a n := by
  intro c hc
  exact readByte_writeBytes_of_outside (h ▸ hc)

end

/-- Bit `k` of a little-endian number is bit `k % 8` of its byte `k / 8`. -/
theorem testBit_leNat (l : List Byte) (k : Nat) : (leNat l).testBit k = (l.getD (k / 8) 0).getLsbD (k % 8) := by
  induction l generalizing k with
  | nil => simp [leNat]
  | cons b rest ih =>
    have hsum : leNat (b :: rest) = 2 ^ 8 * leNat rest + b.toNat := Nat.add_comm ..
    rw [hsum, Nat.testBit_two_pow_mul_add _ b.isLt]
    by_cases hk : k < 8
    · rw [if_pos hk, Nat.div_eq_of_lt hk, Nat.mod_eq_of_lt hk]
      rfl
    · obtain ⟨j, rfl⟩ := Nat.exists_eq_add_of_le' (not_lt.mp hk)
      rw [if_neg hk, ih, Nat.add_sub_cancel, Nat.add_div_right j (by decide), Nat.add_mod_right, List.getD_cons_succ]

theorem testBit_memRead (m : List Host.Cell) (a : Nat) {n k : Nat} (h : k < 8 * n) :
    (memRead m a n).testBit k = (readByte m (a + k / 8)).getLsbD (k % 8) := by
  have hk : k / 8 < n := by omega
  rw [memRead, testBit_leNat]
  simp [readBytes, List.getD_eq_getElem?_getD, hk]

/-! #### The CFG descriptor (R330) -/

section
variable (m : List Host.Cell) (a : Nat)

/-- The 160 bits of the slot mask lie in 20 bytes, low bit first. -/
theorem ulSlotMask_cfgOfBytes {k : Nat} (h : k < 160) :
    (cfgOfBytes (readBytes m a 128)).ulSlotMask.getLsbD k = (readByte m (a + 0x28 + k / 8)).getLsbD (k % 8) := by
  have hmask : (cfgOfBytes (readBytes m a 128)).ulSlotMask = BitVec.ofNat 160 (memRead m (a + 0x28) 20) :=
    congrArg (BitVec.ofNat 160) (fieldAt_readBytes m a (by decide))
  rw [hmask, BitVec.getLsbD_ofNat, testBit_memRead m _ h, decide_eq_true h, Bool.true_and]

theorem tdraRow_cfgOfBytes {bs : List Byte} {i : Nat} (h : i < 16) : (cfgOfBytes bs).tdraRow i = tdraRowAt bs i := by
  simp [CfgRegs.tdraRow, cfgOfBytes, List.getD_eq_getElem?_getD, h]

theorem tdraRowAt_readBytes {i : Nat} (h : i < 16) : tdraRowAt (readBytes m a 128) i =
    ⟨memRead m (a + 0x40 + 4 * i) 1, memRead m (a + 0x41 + 4 * i) 1, memRead m (a + 0x42 + 4 * i) 2⟩ := by
  rw [tdraRowAt, u8_readBytes m a (by omega), u8_readBytes m a (by omega), u16_readBytes m a (by omega)]
  simp only [Nat.add_assoc]

end

/-- Settles O6: each field is the number in its bytes of DMEM. -/
theorem cfgDescriptorLayout : Obligations.CfgDescriptorLayout := by
  intro m a c
  have byte : ∀ {off : Nat}, off < 128 → u8 (readBytes m a 128) off = memRead m (a + off) 1 := u8_readBytes m a
  have half : ∀ {off : Nat}, off + 1 < 128 → u16 (readBytes m a 128) off = memRead m (a + off) 2 :=
    u16_readBytes m a
  have rows : ∀ i < 16, c.tdraRow i =
      ⟨memRead m (a + 0x40 + 4 * i) 1, memRead m (a + 0x41 + 4 * i) 1, memRead m (a + 0x42 + 4 * i) 2⟩ :=
    fun i hi => (tdraRow_cfgOfBytes hi).trans (tdraRowAt_readBytes m a hi)
  refine ⟨byte (by decide), byte (by decide), half (by decide), half (by decide), half (by decide), half (by decide),
    half (by decide), byte (by decide), byte (by decide), byte (by decide), byte (by decide), byte (by decide),
    byte (by decide), byte (by decide), byte (by decide), byte (by decide), byte (by decide), half (by decide),
    half (by decide), byte (by decide), byte (by decide), byte (by decide), byte (by decide), half (by decide),
    half (by decide), byte (by decide), byte (by decide), byte (by decide), byte (by decide), byte (by decide),
    fun k hk => ulSlotMask_cfgOfBytes m a hk, fun i hi => ?_⟩
  rw [rows i hi]
  exact ⟨rfl, rfl, rfl⟩

/-! #### The PUSCH PDU (R331) -/

/-- The fields of a PUSCH PDU in the order of its descriptor, each with its width in bytes. -/
def pduFields (p : Pdu) : List (Nat × Nat) :=
  [(2, p.pduBitMap.toNat), (2, p.rnti), (2, p.bwpStart), (2, p.bwpSize), (2, p.rbStart), (2, p.rbSize),
    (1, p.startSymbol), (1, p.nrOfSymbols), (1, p.mcsIndex), (1, p.mcsTable), (1, p.modOrder), (1, p.nLayers),
    (2, p.codeRate), (4, p.tbsBytes), (1, p.harqPid), (1, p.ndi), (1, p.rv), (1, p.transformPrecoding),
    (2, p.ulDmrsSymbPos.toNat), (1, p.dmrsConfigType), (1, p.numDmrsCdmGrpsNoData), (2, p.dmrsPorts.toNat),
    (2, p.ulDmrsScramblingId), (1, p.scid), (1, p.dmrsDouble), (1, p.ptrsK), (1, p.ptrsL),
    (2, p.ptrsSymbPos.toNat), (1, p.ptrsReOffset), (1, p.ptrsLayer), (1, p.tpmi), (1, p.nAnt), (1, p.tpcDelta),
    (1, p.mappingType), (2, p.txPower.toNat), (2, p.harqAckBits), (2, p.csiP1Bits), (2, p.csiP2Bits),
    (4, p.payloadAddr), (2, p.frame), (1, p.slot), (1, p.reserved)]

theorem pduBytes_eq_layout (p : Pdu) : pduBytes p = layout (pduFields p) := rfl

section
variable {p : Pdu} {off v : Nat}

theorem u8_pduBytes (h : fieldFrom (pduFields p) off = some (1, v)) (hv : v < 2 ^ 8) :
    u8 (pduBytes p) off = v := by
  rw [u8_eq_fieldAt, pduBytes_eq_layout, fieldAt_layout h]
  exact Nat.mod_eq_of_lt hv

theorem u16_pduBytes (h : fieldFrom (pduFields p) off = some (2, v)) (hv : v < 2 ^ 16) :
    u16 (pduBytes p) off = v := by
  rw [u16_eq_fieldAt, pduBytes_eq_layout, fieldAt_layout h]
  exact Nat.mod_eq_of_lt hv

theorem u32_pduBytes (h : fieldFrom (pduFields p) off = some (4, v)) (hv : v < 2 ^ 32) :
    u32 (pduBytes p) off = v := by
  rw [u32_eq_fieldAt, pduBytes_eq_layout, fieldAt_layout h]
  exact Nat.mod_eq_of_lt hv

/-- A field of the PDU that is a set of bits always fits. -/
theorem bits_pduBytes {b : BitVec 16} (h : fieldFrom (pduFields p) off = some (2, b.toNat)) :
    BitVec.ofNat 16 (u16 (pduBytes p) off) = b := by
  rw [u16_pduBytes h b.isLt, BitVec.ofNat_toNat, BitVec.setWidth_eq]

end

/-- Settles O7: each field stands where it is read, and one that fits its place is not cut. -/
theorem pduDescriptorRoundTrip : Obligations.PduDescriptorRoundTrip := by
  intro p rnti bwpStart bwpSize rbStart rbSize startSymbol nrOfSymbols mcsIndex mcsTable modOrder nLayers codeRate
    tbsBytes harqPid ndi rv transformPrecoding dmrsConfigType cdmGroups scramblingId scid dmrsDouble ptrsK ptrsL
    ptrsReOffset ptrsLayer tpmi nAnt tpcDelta mappingType harqAckBits csiP1Bits csiP2Bits payloadAddr frame slot
    reserved
  refine ⟨pduBytes_length p, (Pdu.mk.injEq ..).mpr ?_⟩
  refine ⟨bits_pduBytes ?_, u16_pduBytes ?_ rnti, u16_pduBytes ?_ bwpStart,
    u16_pduBytes ?_ bwpSize, u16_pduBytes ?_ rbStart, u16_pduBytes ?_ rbSize,
    u8_pduBytes ?_ startSymbol, u8_pduBytes ?_ nrOfSymbols, u8_pduBytes ?_ mcsIndex,
    u8_pduBytes ?_ mcsTable, u8_pduBytes ?_ modOrder, u8_pduBytes ?_ nLayers,
    u16_pduBytes ?_ codeRate, u32_pduBytes ?_ tbsBytes, u8_pduBytes ?_ harqPid,
    u8_pduBytes ?_ ndi, u8_pduBytes ?_ rv, u8_pduBytes ?_ transformPrecoding,
    bits_pduBytes ?_, u8_pduBytes ?_ dmrsConfigType, u8_pduBytes ?_ cdmGroups,
    bits_pduBytes ?_, u16_pduBytes ?_ scramblingId, u8_pduBytes ?_ scid,
    u8_pduBytes ?_ dmrsDouble, u8_pduBytes ?_ ptrsK, u8_pduBytes ?_ ptrsL,
    bits_pduBytes ?_, u8_pduBytes ?_ ptrsReOffset, u8_pduBytes ?_ ptrsLayer,
    u8_pduBytes ?_ tpmi, u8_pduBytes ?_ nAnt, u8_pduBytes ?_ tpcDelta,
    u8_pduBytes ?_ mappingType, bits_pduBytes ?_, u16_pduBytes ?_ harqAckBits,
    u16_pduBytes ?_ csiP1Bits, u16_pduBytes ?_ csiP2Bits, u32_pduBytes ?_ payloadAddr,
    u16_pduBytes ?_ frame, u8_pduBytes ?_ slot, u8_pduBytes ?_ reserved⟩
  all_goals
    simp only [pduFields, fieldFrom_here, fieldFrom_later, Nat.reduceSub, Nat.reduceLeDiff, Nat.ofNat_pos, one_pos]

/-! #### The HARQ and the LC record (R342, R343) -/

/-- The fields of a HARQ record. -/
def harqFields (h : HarqEntry) : List (Nat × Nat) :=
  [(4, h.tbsBytes), (2, h.codeRate), (1, h.modOrder), (1, h.lastNdi), (1, h.round), (3, 0)]

/-- The fields of an LC record. -/
def lcFields (l : LcEntry) : List (Nat × Nat) :=
  [(1, flagNum l.configured), (1, l.priority), (1, l.lcg), (1, flagNum l.pbrInf), (4, l.pbrMs), (4, l.bucketSize),
    (4, (BitVec.ofInt 32 l.bj).toNat), (4, l.lastUpdate), (4, 0)]

theorem harqRecord_eq_layout (h : HarqEntry) : harqRecord h = layout (harqFields h) := rfl

theorem lcRecord_eq_layout (l : LcEntry) : lcRecord l = layout (lcFields l) := rfl

theorem harqRecord_length (h : HarqEntry) : (harqRecord h).length = 12 := by
  simp only [harqRecord, List.length_append, leBytes_length]

theorem lcRecord_length (l : LcEntry) : (lcRecord l).length = 24 := by
  simp only [lcRecord, List.length_append, leBytes_length]

theorem memRead_harqRecord (m : List Host.Cell) (a : Nat) {h : HarqEntry} {off n v : Nat} (hfit : off + n ≤ 12)
    (hf : fieldFrom (harqFields h) off = some (n, v)) :
    memRead (writeBytes m a (harqRecord h)) (a + off) n = v % 256 ^ n := by
  rw [memRead_writeBytes m a (by rwa [harqRecord_length]), harqRecord_eq_layout, fieldAt_layout hf]

theorem memRead_lcRecord (m : List Host.Cell) (a : Nat) {l : LcEntry} {off n v : Nat} (hfit : off + n ≤ 24)
    (hf : fieldFrom (lcFields l) off = some (n, v)) :
    memRead (writeBytes m a (lcRecord l)) (a + off) n = v % 256 ^ n := by
  rw [memRead_writeBytes m a (by rwa [lcRecord_length]), lcRecord_eq_layout, fieldAt_layout hf]

theorem flagNum_mod (b : Bool) : flagNum b % 256 ^ 1 = if b then 1 else 0 := by cases b <;> rfl

/-- `Bj` in two's complement. -/
theorem ofInt_toNat_mod (x : Int) : (((BitVec.ofInt 32 x).toNat % 256 ^ 4 : Nat) : Int) = x % 2 ^ 32 := by
  have hlt : (BitVec.ofInt 32 x).toNat < 256 ^ 4 := (BitVec.ofInt 32 x).isLt
  rw [Nat.mod_eq_of_lt hlt, BitVec.toNat_ofInt]
  omega

/-! #### A body whose checks pass -/

section
variable {β : Type} {s : State} {a n al : Nat} {r : Except Stop β}

/-- Where a check passes, the rest of the body decides how it ends. -/
theorem require_bind_eq {p : Prop} [Decidable p] {c : FaultCode} {f : Unit → Except Stop β} (hp : p) (h : f () = r) :
    (require p c >>= f) = r := by
  rw [require_pos hp]
  exact h

theorem checkRegion_bind_eq {f : Unit → Except Stop β} (hr : RegionOk s a n al) (h : f () = r) :
    (checkRegion s a n al >>= f) = r := by
  rw [checkRegion_pos hr]
  exact h

theorem readDesc_bind_eq {daddr : Nat} {f : List Byte → Except Stop β} (hr : RegionOk s (4 * daddr) n 4)
    (h : f (readBytes s.mem (4 * daddr) n) = r) : (readDesc s daddr n >>= f) = r := by
  rw [readDesc_pos hr]
  exact h

end

theorem harqReadBody_ok {s : State} {index : Nat} (hd : s.initDone = true) (hi : index ≤ 15)
    (hr : RegionOk s s.port.arg0.toNat 12 4) : harqReadBody index s =
      .ok ({ s with mem := writeBytes s.mem s.port.arg0.toNat (harqRecord (s.harqEntry index)) }.ret statusOk) :=
  require_bind_eq hd (require_bind_eq hi (checkRegion_bind_eq hr rfl))

theorem lcReadBody_ok {s : State} {index : Nat} (hd : s.initDone = true) (hi : index ≤ 32)
    (hr : RegionOk s s.port.arg0.toNat 24 4) : lcReadBody index s =
      .ok ({ s with mem := writeBytes s.mem s.port.arg0.toNat (lcRecord (s.lcEntry index)) }.ret statusOk) :=
  require_bind_eq hd (require_bind_eq hi (checkRegion_bind_eq hr rfl))

/-- Settles O52: each command writes its record at ARG0, and each field reads back from there. -/
theorem readCommandsWriteTheirRecords : Obligations.ReadCommandsWriteTheirRecords := by
  intro s index hd a h l after
  refine ⟨fun hi hr => ⟨writeBytes s.mem a (harqRecord h), ?_, ?_⟩,
    fun hi hr => ⟨writeBytes s.mem a (lcRecord l), ?_, ?_⟩⟩
  · rw [exec_eq_finish, commandBody, harqReadBody_ok hd hi hr]
    rfl
  · have field := fun {off n v} => memRead_harqRecord s.mem a (h := h) (off := off) (n := n) (v := v)
    have reserved := field (off := 9) (v := 0) (by decide) rfl
    exact ⟨field (off := 0) (by decide) rfl, field (by decide) rfl, field (by decide) rfl, field (by decide) rfl,
      field (by decide) rfl, reserved, sameOutside_writeBytes s.mem a (harqRecord_length h)⟩
  · rw [exec_eq_finish, commandBody, lcReadBody_ok hd hi hr]
    rfl
  · have field := fun {off n v} => memRead_lcRecord s.mem a (l := l) (off := off) (n := n) (v := v)
    have bj := field (off := 12) (by decide) rfl
    have reserved := field (off := 20) (v := 0) (by decide) rfl
    exact ⟨(field (off := 0) (by decide) rfl).trans (flagNum_mod _), field (by decide) rfl, field (by decide) rfl,
      (field (by decide) rfl).trans (flagNum_mod _), field (by decide) rfl, field (by decide) rfl,
      bj ▸ ofInt_toNat_mod l.bj, field (by decide) rfl, reserved,
      sameOutside_writeBytes s.mem a (lcRecord_length l)⟩

end Sys2Proof.Machine
end
section
/-! ### GRANT_TARGET (spec/42_pusch_builder.md R640) -/

namespace Sys2Proof.Machine

-- One proof after another, so that the threads of the whole text stay within the memory limit.
set_option Elab.async false

/-- K2 of a grant, with the extra delay of a RAR or MsgA grant (R603, R640). -/
theorem grantK2_eq (c : CfgRegs) (g : Grant) :
    grantK2 c g = (c.tdraRow g.tdraIndex).k2 + if g.source = 2 ∨ g.source = 3 then c.msg3Delta else 0 := by
  simp only [grantK2, Grant.isRar, Bool.or_eq_true, beq_iff_eq]

theorem exec_grantTarget_eq {s t : State} {daddr : Nat} (h : grantTargetBody daddr s = .ok t) :
    exec (.grantTarget daddr) s = .next t := by
  rw [exec_eq_finish, commandBody, h, finish_ok]

/-- Settles O44: each clause names the first of the checks that decides how the command ends. -/
theorem grantTargetFindsSkipsOrHalts : Obligations.GrantTargetFindsSkipsOrHalts := by
  intro s daddr hd hr g k2 n bad skip res
  have hres : grantReserved (readBytes s.mem (4 * daddr) 32) = 0 ↔ ¬res := by
    rw [(grantOfBytes_readBytes s.mem (4 * daddr)).1]
    omega
  have hk2 : grantK2 s.cfg g = k2 := grantK2_eq s.cfg g
  refine ⟨fun h => exec_of_raises ?_, fun h h3 => exec_grantTarget_eq ?_, fun h h3 hbad => exec_grantTarget_eq ?_,
    fun h h3 hbad hsmall => exec_of_raises ?_, fun h h3 hbad hlarge => ?_⟩
  · exact .afterRequire hd (.afterDesc hr (.require fun h0 => hres.mp h0 h))
  · exact require_bind_eq hd (readDesc_bind_eq hr (require_bind_eq (hres.mpr h) (if_pos h3)))
  · refine require_bind_eq hd (readDesc_bind_eq hr (require_bind_eq (hres.mpr h) ?_))
    rw [if_neg (not_lt.mpr h3), if_pos hbad]
    rfl
  · refine .afterRequire hd (.afterDesc hr (.afterRequire (hres.mpr h) ?_))
    rw [if_neg (not_lt.mpr h3), if_neg hbad]
    exact .require (hk2 ▸ not_lt.mpr hsmall)
  · have hbody : grantTargetBody daddr s = .ok (((s.setRes0 (BitVec.ofNat 32 (n / s.spf % 1024))).setRes1
        (BitVec.ofNat 32 (n % s.spf))).ret statusOk) := by
      refine require_bind_eq hd (readDesc_bind_eq hr (require_bind_eq (hres.mpr h) ?_))
      rw [if_neg (not_lt.mpr h3), if_neg hbad]
      refine require_bind_eq (hk2 ▸ hlarge) ?_
      have hn : targetSlot s g = n := by rw [targetSlot, hk2, State.absSlot]
      rw [hn]
      rfl
    rw [exec_grantTarget_eq hbody]
    simp only [State.ret, State.setRes0, State.setRes1, State.modPort, List.modify_modify_eq]
    rfl

end Sys2Proof.Machine
end
section
/-! ### Configuration and the store (spec/40_config_store.md R401 to R441, spec/42_pusch_builder.md R601) -/

namespace Sys2Proof.Machine

-- One proof after another, so that the threads of the whole text stay within the memory limit.
set_option Elab.async false

/-! #### How a body ends where its checks pass -/

theorem exec_of_body_ok {i : Instr} {s t : State} (h : commandBody s i = .ok t) : exec i s = .next t := by
  rw [exec_eq_finish, h, finish_ok]

theorem exec_of_body_hold {i : Instr} {s : State} {l : List Nat} (h : commandBody s i = .error (.hold l)) :
    exec i s = .next (s.hold l) := by
  rw [exec_eq_finish, h, finish_hold]

theorem checkHandle_bind_eq {β : Type} {s : State} {h : Nat} {r : Except Stop β} {f : Nat × Nat → Except Stop β}
    (hn : h ≠ 0xFFFF) (hk : bits h 15 8 < s.spf) (he : bits h 7 0 ≤ s.build.nPdu)
    (hl : (s.slotRec (bits h 15 8)).lock = some s.cur) (hf : f (bits h 15 8, bits h 7 0) = r) :
    (checkHandle s h >>= f) = r := by
  rw [checkHandle_ok_iff.mpr ⟨hn, ⟨hk, he⟩, hl, rfl⟩]
  exact hf

/-! #### CFG_WRITE and INIT (R440, R441) -/

/-- The reserved bytes of a CFG descriptor in DMEM. -/
theorem cfgReserved_readBytes (m : List Host.Cell) (a : Nat) :
    cfgReserved (readBytes m a 128) = memRead m (a + 0x27) 1 + memRead m (a + 0x3C) 4 :=
  congrArg₂ (· + ·) (u8_readBytes m a (by decide)) (u32_readBytes m a (by decide))

/-- Settles O26: a legal descriptor passes each check of CFG_WRITE, and each defect fails one of them. -/
theorem cfgWriteLoadsOrRefuses : Obligations.CfgWriteLoadsOrRefuses := by
  intro s daddr hr c
  have hres := cfgReserved_readBytes s.mem (4 * daddr)
  refine ⟨fun h27 h3C hlegal hmu => exec_of_body_ok ?_, fun hbad => exec_of_raises (.afterDesc hr ?_)⟩
  · have hzero : cfgReserved (readBytes s.mem (4 * daddr) 128) = 0 := by omega
    exact readDesc_bind_eq hr (require_bind_eq hzero (require_bind_eq hlegal (require_bind_eq hmu rfl)))
  by_cases hzero : cfgReserved (readBytes s.mem (4 * daddr) 128) = 0
  · refine .afterRequire hzero ?_
    by_cases hlegal : c.legal = true
    · refine .afterRequire hlegal (.require fun hmu => ?_)
      rcases hbad with h27 | h3C | hillegal | ⟨hi, hne⟩
      · omega
      · omega
      · rw [hlegal] at hillegal
        cases hillegal
      · exact hne (hmu hi)
    · exact .require hlegal
  · exact .require hzero

theorem freshStore_length (spf nPdu : Nat) : (freshStore spf nPdu).length = spf := by simp [freshStore]

theorem freshStore_getD {spf nPdu k : Nat} (h : k < spf) (d : SlotRec) :
    (freshStore spf nPdu).getD k d = SlotRec.fresh nPdu k := by
  simp [freshStore, List.getD_eq_getElem?_getD, h]

/-- Settles O27. -/
theorem initBuildsTheStore : Obligations.InitBuildsTheStore := by
  intro s
  refine ⟨fun hv => exec_of_raises (.require (by simp [hv])),
    fun hv hi => exec_of_raises (.afterRequire hv (.require (by simp [hi]))), fun hv hi => ?_⟩
  have hbody : commandBody s .init =
      .ok ({ s with store := freshStore s.spf s.build.nPdu, initDone := true }.ret statusOk) :=
    require_bind_eq hv (require_bind_eq hi rfl)
  exact ⟨_, exec_of_body_ok hbody, rfl, freshStore_length .., fun k hk => freshStore_getD hk _⟩

/-! #### The commands of the holder of a lock (R410, R412, R430, R431) -/

theorem ulReleaseBody_ok {s : State} {h : Nat} (clr : Nat) (hd : s.initDone = true) (hn : h ≠ 0xFFFF)
    (hk : bits h 15 8 < s.spf) (he : bits h 7 0 ≤ s.build.nPdu) (hl : (s.slotRec (bits h 15 8)).lock = some s.cur) :
    ulReleaseBody clr h s = .ok ((s.modSlot (bits h 15 8) fun r =>
      { r with lock := none, numberPdus := if clr = 1 then 0 else r.numberPdus }).ret statusOk) := by
  refine require_bind_eq hd (checkHandle_bind_eq hn hk he hl ?_)
  by_cases hclr : clr = 1
  · simp only [if_pos hclr, State.release, State.modSlot_modSlot]
    rfl
  · simp only [if_neg hclr]
    rfl

/-- Settles O32: the checks of the handle pass, and UL_REMOVE_LAST's own check is that of the count. -/
theorem ulReleaseAndRemoveLast : Obligations.UlReleaseAndRemoveLast := by
  intro s clr h hd hn hk he hl
  refine ⟨exec_of_body_ok (ulReleaseBody_ok clr hd hn hk he hl), fun hzero => exec_of_raises ?_,
    fun hsome => exec_of_body_ok ?_⟩
  · exact .afterRequire hd (.afterHandle hn hk he hl (.require (not_not_intro hzero)))
  · exact require_bind_eq hd (checkHandle_bind_eq hn hk he hl (require_bind_eq hsome rfl))

theorem Entry.bytes_length (e : Entry) : e.bytes.length = 64 := by simp [Entry.bytes]

theorem Entry.bytes_getD (e : Entry) {i : Nat} (h : i < 64) : e.bytes.getD i 0 = e.payload.getD i 0 := by
  simp [Entry.bytes, List.getD_eq_getElem?_getD, h]

/-- Settles O34: the checks of the handle and of ARG0's region pass, and what is left is the copy. -/
theorem ulPduWriteAndReadCopyPayloads : Obligations.UlPduWriteAndReadCopyPayloads := by
  intro s h hd hn hk he hl hr e
  refine ⟨fun hlt => exec_of_body_ok ?_, fun hle => ⟨writeBytes s.mem s.port.arg0.toNat e.bytes, ?_, fun i hi => ?_,
    sameOutside_writeBytes _ _ e.bytes_length⟩⟩
  · exact require_bind_eq hd (checkHandle_bind_eq hn hk he hl (require_bind_eq hlt (checkRegion_bind_eq hr rfl)))
  · have hbody : commandBody s (.ulPduRead h) =
        .ok (({ s with mem := writeBytes s.mem s.port.arg0.toNat e.bytes }.setRes0
          (BitVec.ofNat 32 e.pduType)).ret statusOk) :=
      require_bind_eq hd (checkHandle_bind_eq hn hk he hl (require_bind_eq hle (checkRegion_bind_eq hr rfl)))
    rw [exec_of_body_ok hbody]
    simp only [State.ret, State.setRes0, State.modPort, List.modify_modify_eq]
    rfl
  · rw [readByte_writeBytes_at (by rwa [e.bytes_length]), e.bytes_getD hi]

/-! #### Acquiring a lock (R401, R402, R420) -/

section
variable {s : State} {k : Nat}

theorem State.acquire_free (h : (s.slotRec k).lock = none) :
    s.acquire k = .ok (s.modSlot k fun r => { r with lock := some s.cur }) := by
  unfold State.acquire
  rw [h]

theorem State.acquire_own (h : (s.slotRec k).lock = some s.cur) : Raises .selfDeadlock (s.acquire k) := by
  unfold State.acquire
  rw [h]
  exact if_pos rfl

theorem State.acquire_held {q : Nat} (h : (s.slotRec k).lock = some q) (hq : q ≠ s.cur) :
    s.acquire k = .error (.hold [k]) := by
  unfold State.acquire
  rw [h]
  exact if_neg hq

/-- On an uplink slot UL_LOCK_GET and UL_ITER_GET end as Acquire does, where it does not take the lock. -/
theorem acquiringBody_error {e : Stop} {i : Instr} {ptype frame : Nat}
    (hc : (i = .ulLockGet ptype frame k ∧ 1 ≤ ptype ∧ ptype ≤ 4) ∨ i = .ulIterGet frame k)
    (hd : s.initDone = true) (hs : k < s.spf) (hu : s.ulSlot k = true) (h : s.unwait.acquire k = .error e) :
    commandBody s i = .error e := by
  have hul : ¬s.unwait.ulSlot k = false := ne_false_of_eq_true hu
  rcases hc with ⟨rfl, ht⟩ | rfl
  · refine require_bind_eq hd (require_bind_eq hs (require_bind_eq ht ?_))
    rw [if_neg hul]
    exact bind_error_iff.mpr (.inl h)
  · refine require_bind_eq hd (require_bind_eq hs ?_)
    rw [if_neg hul]
    exact bind_error_iff.mpr (.inl h)

end

/-! #### Holds (R1030) -/

section
variable (s : State)

theorem State.hold_store_length (l : List Nat) : (s.hold l).store.length = s.store.length := (s.hold_eq l).2.1

theorem State.hold_concat (l : List Nat) (k : Nat) : s.hold (l ++ [k]) =
    (s.hold l).modSlot k fun r => { r with waiters := addWaiter s.cur r.waiters } := by
  simp [State.hold]

/-- The issuing port is among the waiters of each lock it is held on. -/
theorem State.mem_waiters_hold {l : List Nat} {k : Nat} (hk : k ∈ l) (hlen : k < s.store.length) :
    s.cur ∈ ((s.hold l).slotRec k).waiters := by
  induction l using List.reverseRecOn with
  | nil => cases hk
  | append_singleton l j ih =>
    rw [State.hold_concat, State.modSlot_slotRec]
    by_cases hkj : k = j
    · subst hkj
      rw [if_pos ⟨rfl, by rwa [State.hold_store_length]⟩]
      exact (mem_addWaiter ..).mpr (.inl rfl)
    · rw [if_neg fun h => hkj h.1]
      exact ih ((List.mem_append.mp hk).resolve_right fun h => hkj (List.mem_singleton.mp h))

end

/-! #### TA_EXPIRY (R601) -/

section
variable {s : State}

theorem State.holdsSome_iff : s.holdsSome = true ↔ ∃ k < s.spf, (s.slotRec k).lock = some s.cur := by
  simp [State.holdsSome]

theorem State.heldSlots_ne_nil_iff : s.heldSlots ≠ [] ↔ ∃ k < s.spf, (s.slotRec k).lock ≠ none := by
  simp [State.heldSlots]

/-- TA_EXPIRY while its port holds a lock. -/
theorem taExpiryBody_own (hd : s.initDone = true) (h : ∃ k < s.spf, (s.slotRec k).lock = some s.cur) :
    Raises .selfDeadlock (taExpiryBody s) := by
  have hsome := State.holdsSome_iff.mpr h
  exact .afterRequire hd (.require (ne_false_of_eq_true hsome))

/-- TA_EXPIRY while only other ports hold locks. -/
theorem taExpiryBody_held (hd : s.initDone = true) (hown : ∀ k < s.spf, (s.slotRec k).lock ≠ some s.cur)
    (h : ∃ k < s.spf, (s.slotRec k).lock ≠ none) : taExpiryBody s = .error (.hold (List.range s.spf)) := by
  have hnone : s.holdsSome = false := Bool.eq_false_iff.mpr fun hsome =>
    let ⟨k, hk, hl⟩ := State.holdsSome_iff.mp hsome
    hown k hk hl
  exact require_bind_eq hd (require_bind_eq hnone (if_pos (State.heldSlots_ne_nil_iff.mpr h)))

end

/-- Settles O30: a lock of the port's own is a fault, and a lock of another port a hold on it, for TA_EXPIRY on all. -/
theorem acquiringCommandsWaitOrDeadlock : Obligations.AcquiringCommandsWaitOrDeadlock := by
  refine ⟨fun s i ptype frame slot hc hd hs hlen hu => ⟨fun hl => ?_, fun q hl hq => ?_⟩,
    fun s hd => ⟨fun hown => exec_of_raises ?_, fun hown hheld => ?_⟩⟩
  · refine exec_of_raises (acquiringBody_error hc hd hs hu (State.acquire_own ?_))
    rwa [s.unwait_lock]
  · have hbody := acquiringBody_error hc hd hs hu (State.acquire_held (by rwa [s.unwait_lock]) hq)
    exact ⟨_, exec_of_body_hold hbody, (s.hold_eq _).1, s.hold_sameSlot _,
      s.mem_waiters_hold List.mem_cons_self hlen⟩
  · exact taExpiryBody_own (s := s.unwait) hd (by simpa [s.unwait_lock] using hown)
  · have hbody : commandBody s .taExpiry = .error (.hold (List.range s.spf)) :=
      taExpiryBody_held (s := s.unwait) hd (by simpa [s.unwait_lock] using hown)
        (by simpa [s.unwait_lock] using hheld)
    exact ⟨_, exec_of_body_hold hbody, (s.hold_eq _).1, fun k => ⟨s.hold_sameSlot _ k,
      fun hk hlen => s.mem_waiters_hold (List.mem_range.mpr hk) hlen⟩⟩

/-! #### UL_ITER_GET and UL_LOCK_GET on a FREE uplink slot (R401, R420) -/

theorem handleWord_eq {slot entry : Nat} (hs : slot < 256) (he : entry < 256) :
    handleWord slot entry = BitVec.ofNat 32 (256 * slot + entry) := by
  rw [handleWord, Nat.mod_eq_of_lt hs, Nat.mod_eq_of_lt he, Nat.mul_comm]

/-- A change of a slot that exists, once the issuing port waits no more, writes that slot's record. -/
theorem State.unwait_modSlot_eq {s : State} {k : Nat} (hk : k < s.store.length) (f : SlotRec → SlotRec) :
    s.unwait.modSlot k f = { s with
      store := s.unwait.store.set k
        (f { s.slotRec k with waiters := (s.slotRec k).waiters.filter fun q => q ≠ s.cur }) } := by
  have hlen : k < s.unwait.store.length := by simpa using hk
  have hget : s.unwait.store.get ⟨k, hlen⟩ = s.unwait.slotRec k := (List.getD_eq_getElem _ _ hlen).symm
  rw [State.modSlot, List.modify_eq_set_get f hlen, hget, s.unwait_slotRec hk]
  rfl

/-- The record of a slot whose lock was just taken. -/
theorem State.lockTaken_slotRec {s : State} {k : Nat} (hk : k < s.store.length) (p : Nat) :
    (s.modSlot k fun r => { r with lock := some p }).slotRec k = { s.slotRec k with lock := some p } := by
  rw [State.modSlot_slotRec, if_pos ⟨rfl, hk⟩]

theorem ulIterGetBody_free {s : State} {slot : Nat} (hd : s.initDone = true) (hs : slot < s.spf)
    (hlen : slot < s.store.length) (hu : s.ulSlot slot = true) (hl : (s.slotRec slot).lock = none) :
    ulIterGetBody slot s =
      .ok ((((s.modSlot slot fun r => { r with lock := some s.cur }.withEnd).setRes0 (handleWord slot 0)).setRes1
        (BitVec.ofNat 32 (s.slotRec slot).numberPdus)).ret statusOk) := by
  refine require_bind_eq hd (require_bind_eq hs ?_)
  rw [if_neg (ne_false_of_eq_true hu), State.acquire_free hl]
  refine bind_ok_iff.mpr ⟨_, rfl, ?_⟩
  dsimp only
  rw [State.lockTaken_slotRec hlen, State.modSlot_modSlot]
  rfl

/-- Settles O33: the lock is FREE, and the change of the slot's record is the lock, the sentinel and the end of the
port's own wait. -/
theorem ulIterGetWritesTheSentinel : Obligations.UlIterGetWritesTheSentinel := by
  intro s frame slot hd hs h256 hlen hu hl r
  have hbody := ulIterGetBody_free (s := s.unwait) hd hs (by simpa using hlen) hu (by rwa [s.unwait_lock])
  rw [exec_of_body_ok (i := .ulIterGet frame slot) hbody, State.unwait_modSlot_eq hlen, s.unwait_slotRec hlen,
    handleWord_eq h256 (by decide)]
  simp only [State.ret, State.setRes0, State.setRes1, State.modPort, List.modify_modify_eq]
  rfl

/-- The lock, the stale-tag recovery, which is logged and leaves no PDU, and the new tag of slot `k`, as one change of
the log and one of the slot record (R401). -/
def State.lockTagged (frame k : Nat) (stale : Bool) (s : State) : State :=
  State.modSlot k (fun r => { r with
      lock := some s.cur, tagFrame := frame, tagSlot := k, numberPdus := if stale then 0 else r.numberPdus })
    { s with errLog := if stale then s.errLog ++ [⟨okStaleRecovered, frame, k⟩] else s.errLog }

section
variable {s : State} {frame k : Nat} {stale : Bool}

theorem State.staleTag_lockTaken (hk : k < s.store.length) (p : Nat) :
    (s.modSlot k fun r => { r with lock := some p }).staleTag frame k = s.staleTag frame k := by
  rw [State.staleTag, State.lockTaken_slotRec hk]
  rfl

theorem State.retag_lockTaken (hk : k < s.store.length) :
    (s.modSlot k fun r => { r with lock := some s.cur }).retag frame k =
      s.lockTagged frame k (s.staleTag frame k) := by
  rw [State.retag, State.staleTag_lockTaken hk]
  cases s.staleTag frame k
  · exact State.modSlot_modSlot ..
  · exact State.modSlot_modSlot (s.log okStaleRecovered frame k) ..

/-- On a FREE slot with room under the tag asked for, UL_LOCK_GET reserves the next entry (R401). -/
theorem lockGetGranted_room {n : Nat} (ptype : Nat) (hk : k < s.store.length) (hstale : s.staleTag frame k = stale)
    (hn : (if stale then 0 else (s.slotRec k).numberPdus) = n) (hroom : n < s.build.nPdu) :
    lockGetGranted ptype frame k (s.modSlot k fun r => { r with lock := some s.cur }) =
      (((s.lockTagged frame k stale).reserve ptype k).setRes0 (handleWord k n)).ret
        (if stale then okStaleRecovered else statusOk) := by
  have hcount : ((s.lockTagged frame k stale).slotRec k).numberPdus = n := by
    rw [State.lockTagged, State.modSlot_slotRec, if_pos ⟨rfl, hk⟩]
    exact hn
  unfold lockGetGranted
  dsimp only
  rw [State.retag_lockTaken hk, State.staleTag_lockTaken hk, hstale, hcount]
  exact if_neg (not_le.mpr hroom)

theorem State.unwait_staleTag (hk : k < s.store.length) : s.unwait.staleTag frame k = s.staleTag frame k := by
  rw [State.staleTag, s.unwait_slotRec hk]
  rfl

/-- The lock, the tag and the entry of UL_LOCK_GET, once the issuing port waits no more, as one record of the store. -/
theorem State.reserve_lockTagged_unwait (hk : k < s.store.length) (ptype : Nat) :
    (s.unwait.lockTagged frame k stale).reserve ptype k = { s with
      store := s.unwait.store.set k
        { lock := some s.cur
          waiters := (s.slotRec k).waiters.filter fun q => q ≠ s.cur
          tagFrame := frame
          tagSlot := k
          numberPdus := (if stale then 0 else (s.slotRec k).numberPdus) + 1
          entries := (s.slotRec k).entries.modify (if stale then 0 else (s.slotRec k).numberPdus)
            fun e => { e with pduType := ptype } }
      errLog := if stale then s.errLog ++ [⟨okStaleRecovered, frame, k⟩] else s.errLog } :=
  (State.modSlot_modSlot ..).trans (State.unwait_modSlot_eq (s := { s with
    errLog := if stale then s.errLog ++ [⟨okStaleRecovered, frame, k⟩] else s.errLog }) hk _)

end

theorem Build.nPdu_lt (b : Build) : b.nPdu < 256 := Nat.succ_lt_succ b.nPduPred.isLt

/-- Settles O28: the lock is FREE and the slot has room, so the change of its record is the lock, the tag, the new
entry and the end of the port's own wait. -/
theorem ulLockGetReservesAnEntry : Obligations.UlLockGetReservesAnEntry := by
  intro s ptype frame slot hd hs h256 hlen h1 h4 hu hl r stale n hroom
  have hlen' : slot < s.unwait.store.length := by simpa using hlen
  have hstale : s.unwait.staleTag frame slot = stale := State.unwait_staleTag hlen
  have hn : (if stale then 0 else (s.unwait.slotRec slot).numberPdus) = n := by rw [s.unwait_slotRec hlen]
  have hbody := ulLockGetBody_free (s := s.unwait) (frame := frame) hd hs ⟨h1, h4⟩ hu (by rwa [s.unwait_lock])
  rw [exec_of_body_ok (i := .ulLockGet ptype frame slot) hbody, lockGetGranted_room ptype hlen' hstale hn hroom,
    handleWord_eq h256 (hroom.trans s.build.nPdu_lt), State.reserve_lockTagged_unwait hlen]
  simp only [State.ret, State.setRes0, State.modPort, List.modify_modify_eq, apply_ite (BitVec.ofInt 32)]
  rfl

end Sys2Proof.Machine
end
section
/-! ### The builder's operands: TA_EXPIRY, the transport block size, RIV and SLIV (spec/42_pusch_builder.md R601, R635 to
R639) -/

namespace Sys2Proof.Machine

-- One proof after another, so that the threads of the whole text stay within the memory limit.
set_option Elab.async false

/-! #### TA_EXPIRY with every lock FREE (R601, R602) -/

theorem taExpiryBody_free {s : State} (hd : s.initDone = true) (h : ∀ k < s.spf, (s.slotRec k).lock = none) :
    taExpiryBody s = .ok ((({ s with
      store := s.store.map fun r => { r with numberPdus := 0 }
      harq := List.replicate 16 (HarqEntry.afterReset s.build) } : State).log dlConfigClear 0 0).ret statusOk) := by
  have hheld : ¬s.heldSlots ≠ [] := fun hne => by
    obtain ⟨k, hk, hlock⟩ := State.heldSlots_ne_nil_iff.mp hne
    exact hlock (h k hk)
  have hown : s.holdsSome = false := Bool.eq_false_iff.mpr fun hsome => by
    obtain ⟨k, hk, hlock⟩ := State.holdsSome_iff.mp hsome
    rw [h k hk] at hlock
    cases hlock
  exact require_bind_eq hd (require_bind_eq hown (if_neg hheld))

/-- Settles O43: with every lock FREE the command neither faults nor waits, and its body is its whole effect. -/
theorem taExpiryResetsStoreAndHarq : Obligations.TaExpiryResetsStoreAndHarq := by
  intro s hd h
  have hbody := taExpiryBody_free (s := s.unwait) hd fun k hk => (s.unwait_lock k).trans (h k hk)
  rw [exec_of_body_ok (i := .taExpiry) hbody]
  rfl

/-! #### The transport block size (R635, R637) -/

theorem ceilDiv_mul_ge (a : Nat) {b : Nat} (hb : 0 < b) : a ≤ b * ceilDiv a b := by
  have hlt : a + b - 1 < b * (ceilDiv a b + 1) := Nat.lt_mul_div_succ _ hb
  rw [Nat.mul_succ] at hlt
  omega

theorem ceilDiv_pos {a b : Nat} (ha : 0 < a) (hb : 0 < b) : 0 < ceilDiv a b := Nat.div_pos (by omega) hb

/-- A transport block that is not empty: whole bytes, and at least the smallest entry of the table. -/
def WholeTbs (n : Nat) : Prop := n % 8 = 0 ∧ 24 ≤ n

theorem tbsTable_whole : ∀ e ∈ tbsTable, e % 8 = 0 ∧ 24 ≤ e := by decide

/-- The table ends with 3824, so it has an entry for every `N_info` up to there. -/
theorem tbsSmall_whole {nInfo : Nat} (h : nInfo ≤ 3824) : WholeTbs (tbsSmall nInfo) := by
  unfold tbsSmall
  extract_lets n rounded
  have hrounded : rounded ≤ 3824 := max_le (by decide) ((Nat.mul_div_le ..).trans h)
  cases hfind : tbsTable.find? fun e => decide (rounded ≤ e) with
  | none => exact absurd (decide_eq_true hrounded) (List.find?_eq_none.mp hfind 3824 (by decide))
  | some e => exact tbsTable_whole e (List.mem_of_find?_eq_some hfind)

theorem tbsSegmented_whole {n c : Nat} (hn : 24 ≤ n) (hc : 0 < c) : WholeTbs (tbsSegmented n c) := by
  have hge := ceilDiv_mul_ge (n + 24) (b := 8 * c) (by omega)
  unfold tbsSegmented WholeTbs
  rw [Nat.mul_assoc] at hge ⊢
  omega

theorem tbsLarge_whole (num cr : Nat) : WholeTbs (tbsLarge num cr) := by
  unfold tbsLarge
  extract_lets excess n d rounded
  have hrounded : 3840 ≤ rounded := le_max_left ..
  split_ifs
  · exact tbsSegmented_whole (by omega) (ceilDiv_pos (by omega) (by decide))
  · exact tbsSegmented_whole (by omega) (ceilDiv_pos (by omega) (by decide))
  · exact tbsSegmented_whole (c := 1) (by omega) Nat.one_pos

/-- A transport block is empty where `N_info` is not positive, and whole bytes elsewhere. -/
theorem tbsCompute_cases (nRe : Int) (cr qm layers : Nat) :
    (tbsCompute nRe cr qm layers = 0 ∧ nRe.toNat * cr * qm * layers = 0) ∨
      (WholeTbs (tbsCompute nRe cr qm layers) ∧ nRe.toNat * cr * qm * layers ≠ 0) := by
  unfold tbsCompute
  extract_lets num
  split_ifs with h0 hsmall
  · exact .inl ⟨rfl, h0⟩
  · exact .inr ⟨tbsSmall_whole (Nat.div_le_of_le_mul (by omega)), h0⟩
  · exact .inr ⟨tbsLarge_whole num cr, h0⟩

/-- Settles O51: both table and formula give whole bytes. -/
theorem tbsIsAMultipleOfEight : Obligations.TbsIsAMultipleOfEight := by
  intro nRe cr qm layers
  have hzero : nRe.toNat * cr * qm * layers = 0 ↔ nRe ≤ 0 ∨ cr = 0 ∨ qm = 0 ∨ layers = 0 := by
    simp only [Nat.mul_eq_zero, Int.toNat_eq_zero, or_assoc]
  rw [← hzero]
  rcases tbsCompute_cases nRe cr qm layers with ⟨h, hinfo⟩ | ⟨⟨h8, h24⟩, hinfo⟩
  · exact ⟨by rw [h], iff_of_true h hinfo, fun hne => absurd h hne⟩
  · exact ⟨h8, iff_of_false (by omega) hinfo, fun _ => h24⟩

/-! #### RIV and SLIV (R638, R639) -/

section
variable {n start len riv : Nat}

/-- The two candidates of the decoder: the allocation of a RIV is the first where its length is at most half the
bandwidth part, and the second elsewhere. -/
theorem rivDecode_rivEncode (hlen : 1 ≤ len) (hfit : start + len ≤ n) :
    rivDecode (rivEncode n start len) n = some (start, len) := by
  unfold rivDecode
  by_cases hhalf : len - 1 ≤ n / 2
  · have henc : rivEncode n start len = n * (len - 1) + start := if_pos hhalf
    have hmod : rivEncode n start len % n = start := by
      rw [henc, Nat.mul_add_mod, Nat.mod_eq_of_lt (by omega)]
    have hdiv : rivEncode n start len / n = len - 1 := by
      rw [henc, Nat.mul_add_div (by omega), Nat.div_eq_of_lt (by omega), Nat.add_zero]
    rw [hmod, hdiv, Nat.sub_add_cancel hlen]
    exact List.find?_cons_of_pos (by simpa using ⟨hlen, hfit⟩)
  · have henc : rivEncode n start len = n * (n - len + 1) + (n - 1 - start) := if_neg hhalf
    have hmod : rivEncode n start len % n = n - 1 - start := by
      rw [henc, Nat.mul_add_mod, Nat.mod_eq_of_lt (by omega)]
    have hdiv : rivEncode n start len / n = n - len + 1 := by
      rw [henc, Nat.mul_add_div (by omega), Nat.div_eq_of_lt (by omega), Nat.add_zero]
    have hstart : n - 1 - (n - 1 - start) = start := by omega
    have hlen' : n + 1 - (n - len + 1) = len := by omega
    rw [hmod, hdiv, hstart, hlen', List.find?_cons_of_neg (by simp; omega)]
    exact List.find?_cons_of_pos (by simpa using ⟨hlen, hfit⟩)

theorem rivDecode_eq_some_iff : rivDecode riv n = some (start, len) ↔
    1 ≤ len ∧ start + len ≤ n ∧ riv = rivEncode n start len := by
  constructor
  · intro h
    have hcheck := List.find?_some h
    simp only [decide_eq_true_eq] at hcheck
    obtain ⟨hlen, hfit, henc⟩ := hcheck
    exact ⟨hlen, hfit, henc.symm⟩
  · rintro ⟨hlen, hfit, rfl⟩
    exact rivDecode_rivEncode hlen hfit

theorem lt_triangle_iff {k : Nat} : k < n * (n + 1) / 2 ↔ 2 * k < n * (n + 1) := by
  have heven := Nat.div_two_mul_two_of_even (Nat.even_mul_succ_self n)
  omega

/-- The encodings of the `n (n + 1) / 2` allocations lie below their number. -/
theorem rivEncode_lt (hlen : 1 ≤ len) (hfit : start + len ≤ n) : rivEncode n start len < n * (n + 1) / 2 := by
  rw [lt_triangle_iff]
  obtain ⟨k, rfl⟩ : ∃ k, n = k + 1 := ⟨n - 1, by omega⟩
  unfold rivEncode
  split_ifs with hhalf
  · have hrows : k * (2 * (len - 1)) ≤ k * (k + 1) := Nat.mul_le_mul_left k (by omega)
    generalize hl : len - 1 = l at *
    have hstart : start + l ≤ k := by omega
    nlinarith
  · have hrows : (k + 1) * (2 * (k + 1 - len + 1)) ≤ (k + 1) * k := Nat.mul_le_mul_left _ (by omega)
    generalize k + 1 - len + 1 = rows at *
    have hstart : k + 1 - 1 - start ≤ k := by omega
    nlinarith

/-- Each value below the number of allocations is the encoding of one of the two candidates. -/
theorem exists_rivEncode (h : riv < n * (n + 1) / 2) :
    ∃ start len, 1 ≤ len ∧ start + len ≤ n ∧ riv = rivEncode n start len := by
  rw [lt_triangle_iff] at h
  have hn : 0 < n := Nat.pos_of_ne_zero fun h0 => by simp [h0] at h
  obtain ⟨q, r, hr, rfl⟩ : ∃ q r, r < n ∧ riv = n * q + r :=
    ⟨riv / n, riv % n, Nat.mod_lt _ hn, (Nat.div_add_mod ..).symm⟩
  have hq : 2 * q ≤ n := by
    by_contra hq
    have := Nat.mul_le_mul_left n (not_le.mp hq)
    nlinarith
  by_cases hfit : q + r < n
  · refine ⟨r, q + 1, by omega, by omega, ?_⟩
    rw [rivEncode, if_pos (by omega), Nat.add_sub_cancel]
  · have hq' : 2 * q ≠ n := by
      rintro rfl
      nlinarith
    refine ⟨n - 1 - r, n + 1 - q, by omega, by omega, ?_⟩
    rw [rivEncode, if_neg (by omega), show n - (n + 1 - q) + 1 = q by omega, show n - 1 - (n - 1 - r) = r by omega]

end

/-- Settles O50: decoding inverts the encoding, whose values fill the range below the number of allocations. -/
theorem rivAndSlivDecodeTheirEncodings : Obligations.RivAndSlivDecodeTheirEncodings := by
  refine ⟨fun n riv start len _ => rivDecode_eq_some_iff, fun n riv _ => ?_, slivDecode_eq_some_iff⟩
  constructor
  · intro hnone
    by_contra hlt
    obtain ⟨start, len, halloc⟩ := exists_rivEncode (not_le.mp hlt)
    rw [rivDecode_eq_some_iff.mpr halloc] at hnone
    cases hnone
  · intro hle
    cases hdec : rivDecode riv n with
    | none => rfl
    | some a =>
      obtain ⟨hlen, hfit, rfl⟩ := rivDecode_eq_some_iff.mp hdec
      exact absurd (rivEncode_lt hlen hfit) (not_lt.mpr hle)

end Sys2Proof.Machine
end
section
/-! ### The checks of a grant (spec/42_pusch_builder.md R660, R661) -/

namespace Sys2Proof.Machine

-- One proof after another, so that the threads of the whole text stay within the memory limit.
set_option Elab.async false

/-! #### What an accepted grant determines -/

/-- What `evalGrant` has found where it accepts a grant: every check of R661 passes, and each field of the allocation is
what the grant and the configuration give. -/
structure Accepted (s : State) (g : Grant) (x : Alloc) : Prop where
  source : g.source ≤ 3
  fields : g.fieldsLegal s.cfg = true
  layers : g.tp s.cfg = true → g.layers = 1
  rb : rivDecode g.riv s.cfg.bwpSize = some (x.rbStart, x.rbSize)
  row : x.row = mcsLookup (g.tp s.cfg) (g.tableCode s.cfg) g.mcs
  symbols : slivDecode (s.cfg.tdraRow g.tdraIndex).sliv = some (x.startSymbol, x.len)
  mt : x.mt = (s.cfg.tdraRow g.tdraIndex).mappingType
  dmrs : dmrsOf s.cfg g x.mt x.startSymbol x.len = some x.dmrs
  tbs : x.tbsBytes = grantTbs (g.newData (s.harqEntry g.pid)) (s.harqEntry g.pid) (dataRes x.dmrs x.len x.rbSize) x.row
    g.layers
  tbs_ne : x.tbsBytes ≠ 0
  rate : x.codeRate = if g.newData (s.harqEntry g.pid) then x.row.rate.val else (s.harqEntry g.pid).codeRate

theorem grantValue_ok_iff {α : Type} {o : Option α} {c : Int} {a : α} : grantValue o c = .ok a ↔ o = some a := by
  cases o <;> simp [grantValue]

theorem accepted_of_evalGrant {s : State} {g : Grant} {x : Alloc} (h : evalGrant s g = .ok x) : Accepted s g x := by
  simp only [evalGrant, bind_ok_iff, grantCheck_ok_iff, grantValue_ok_iff, pure_ok_iff] at h
  obtain ⟨_, hsource, _, hfields, _, hlayers, rb, hrb, _, -, _, -, sl, hsl, d, hd, _, -, _, htbs, rfl⟩ := h
  exact ⟨hsource, hfields, hlayers, hrb, rfl, hsl, rfl, hd, rfl, htbs, rfl⟩

/-! #### The DMRS of a grant (R629 to R632, R661 check 6) -/

section
variable {c : CfgRegs} {g : Grant}

/-- The antenna-port row of a grant of DCI 0_1 (R630). -/
def portRow (c : CfgRegs) (g : Grant) : Option AntPortRow :=
  antPortLookup (g.tp c) c.dmrsType c.dmrsMaxLength g.layers g.antennaPorts

theorem dmrsShape_dci01 (hg : g.source = 1) (len : Nat) : dmrsShape c g len =
    if g.tp c = true ∧ c.dmrsType = 2 then none
    else (portRow c g).map fun r => (c.dmrsType, r.cdmPred.val + 1, r.ports.setWidth 16, r.double) := if_pos hg

theorem dmrsShape_other (hg : g.source ≠ 1) (len : Nat) : dmrsShape c g len =
    some (1, if g.tp c = false ∧ len ≤ 2 then 1 else 2, 1, false) := if_neg hg

theorem dmrsShape_eq_none_iff {len : Nat} : dmrsShape c g len = none ↔
    g.source = 1 ∧ (portRow c g = none ∨ (g.tp c = true ∧ c.dmrsType = 2)) := by
  by_cases hg : g.source = 1
  · rw [dmrsShape_dci01 hg]
    split_ifs with htype
    · exact iff_of_true rfl ⟨hg, .inr htype⟩
    · simp [hg, htype]
  · rw [dmrsShape_other hg]
    simp [hg]

/-- A grant has a double-symbol DMRS where its antenna-port row says so. -/
def doubleDmrs (c : CfgRegs) (g : Grant) : Bool :=
  decide (g.source = 1) && ((portRow c g).map fun r => r.double).getD false

theorem double_of_dmrsShape {len : Nat} {sh : Nat × Nat × BitVec 16 × Bool} (h : dmrsShape c g len = some sh) :
    sh.2.2.2 = doubleDmrs c g := by
  by_cases hg : g.source = 1
  · rw [dmrsShape_dci01 hg] at h
    split_ifs at h
    obtain ⟨r, hr, rfl⟩ := Option.map_eq_some_iff.mp h
    simp [doubleDmrs, hg, hr]
  · rw [dmrsShape_other hg] at h
    cases h
    simp [doubleDmrs, hg]

/-- A grant has a DMRS where its shape is known and every DMRS symbol lies in the allocation. -/
theorem dmrsOf_eq_some_iff {mt start len : Nat} {d : Dmrs} : dmrsOf c g mt start len = some d ↔
    dmrsShape c g len = some (d.dmrsType, d.cdm, d.ports, d.double) ∧ d.symbols = dmrsSymbols c g mt start len d.double ∧
      ∀ l ∈ d.symbols, start ≤ l ∧ l < start + len := by
  unfold dmrsOf
  rw [Option.bind_eq_some_iff]
  constructor
  · rintro ⟨sh, hsh, hd⟩
    dsimp only at hd
    split_ifs at hd with hin
    cases hd
    exact ⟨hsh, rfl, by simpa using hin⟩
  · rintro ⟨hsh, hsymbols, hin⟩
    refine ⟨_, hsh, ?_⟩
    dsimp only
    rw [← hsymbols, if_pos (by simpa using hin)]

theorem dmrs_fails_of_dmrsOf_eq_none {mt start len : Nat} (h : dmrsOf c g mt start len = none) :
    (g.source = 1 ∧ (portRow c g = none ∨ (g.tp c = true ∧ c.dmrsType = 2))) ∨
      ∃ l ∈ dmrsSymbols c g mt start len (doubleDmrs c g), l < start ∨ start + len ≤ l := by
  cases hsh : dmrsShape c g len with
  | none => exact .inl (dmrsShape_eq_none_iff.mp hsh)
  | some sh =>
    right
    by_contra hin
    push Not at hin
    rw [← double_of_dmrsShape hsh] at hin
    rw [dmrsOf_eq_some_iff (d := ⟨sh.1, sh.2.1, sh.2.2.1, sh.2.2.2, _⟩) |>.mpr ⟨hsh, rfl, hin⟩] at h
    cases h

theorem not_dmrs_fails_of_dmrsOf {mt start len : Nat} {d : Dmrs} (h : dmrsOf c g mt start len = some d) :
    ¬((g.source = 1 ∧ (portRow c g = none ∨ (g.tp c = true ∧ c.dmrsType = 2))) ∨
      ∃ l ∈ dmrsSymbols c g mt start len (doubleDmrs c g), l < start ∨ start + len ≤ l) := by
  obtain ⟨hsh, hsymbols, hin⟩ := dmrsOf_eq_some_iff.mp h
  have hdouble : d.double = doubleDmrs c g := double_of_dmrsShape hsh
  rw [← hdouble, ← hsymbols]
  rintro (hnone | ⟨l, hl, hout⟩)
  · rw [dmrsShape_eq_none_iff.mpr hnone] at hsh
    cases hsh
  · have := hin l hl
    omega

end

/-! #### The first failing check decides (R661) -/

section
variable {s : State} {g : Grant}

/-- How the checks of a grant end from check `n` on, where those before it pass: with an allocation where none fails,
else with the status of the first that fails. -/
def EndsFrom (s : State) (g : Grant) (n : Nat) (r : Except Int Alloc) : Prop :=
  (∀ m < n, ¬GrantFails s g m) →
    ((∃ x, r = .ok x) ∧ ∀ m, ¬GrantFails s g m) ∨ ∃ m, FirstGrantFailure s g m ∧ r = .error (grantStatus m)

theorem EndsFrom.fail {n : Nat} {c : Int} (hc : grantStatus n = c) (h : GrantFails s g n) :
    EndsFrom s g n (.error c) := fun hbefore => .inr ⟨n, ⟨h, hbefore⟩, by rw [hc]⟩

theorem EndsFrom.next {n : Nat} {r : Except Int Alloc} (hn : ¬GrantFails s g n) (h : EndsFrom s g (n + 1) r) :
    EndsFrom s g n r := fun hbefore => h fun m hm => by
  rcases Nat.lt_succ_iff_lt_or_eq.mp hm with hlt | rfl
  · exact hbefore m hlt
  · exact hn

theorem EndsFrom.check {n : Nat} {p : Prop} [Decidable p] {c : Int} {f : Unit → Except Int Alloc}
    (hc : grantStatus n = c) (hfail : ¬p → GrantFails s g n) (h : p → EndsFrom s g n (f ())) :
    EndsFrom s g n (grantCheck p c >>= f) := by
  by_cases hp : p
  · rw [grantCheck_ok_iff.mpr hp]
    exact h hp
  · rw [grantCheck, if_neg hp]
    exact .fail hc (hfail hp)

theorem EndsFrom.value {n : Nat} {α : Type} {o : Option α} {c : Int} {f : α → Except Int Alloc}
    (hc : grantStatus n = c) (hfail : o = none → GrantFails s g n) (h : ∀ a, o = some a → EndsFrom s g n (f a)) :
    EndsFrom s g n (grantValue o c >>= f) := by
  cases o with
  | none => exact .fail hc (hfail rfl)
  | some a => exact h a rfl

theorem EndsFrom.pass {x : Alloc} : EndsFrom s g 9 (pure x) := fun hbefore => .inl ⟨⟨x, rfl⟩, fun m => by
  by_cases hm : m < 9
  · exact hbefore m hm
  · obtain ⟨k, rfl⟩ : ∃ k, m = k + 9 := ⟨m - 9, by omega⟩
    exact id⟩

theorem not_fieldsLegal_iff : ¬g.fieldsLegal s.cfg = true ↔ GrantFails s g 2 := by
  simp only [Grant.fieldsLegal, decide_eq_true_eq, GrantFails, Grant.isRar, Bool.or_eq_true, beq_iff_eq]
  omega

/-- A whole number of bytes is empty where its bits are. -/
theorem grantTbs_eq_zero_iff {new : Bool} {h : HarqEntry} {nRe : Int} {row : McsRow} {layers : Nat} :
    grantTbs new h nRe row layers = 0 ↔
      (new = false ∧ h.tbsBytes = 0) ∨ (new = true ∧ tbsCompute nRe row.rate.val row.qm.val layers = 0) := by
  have hwhole := (tbsIsAMultipleOfEight nRe row.rate.val row.qm.val layers).1
  cases new
  · simp [grantTbs]
  · simp [grantTbs]
    omega

theorem evalGrant_endsFrom (s : State) (g : Grant) : EndsFrom s g 1 (evalGrant s g) := by
  unfold evalGrant
  refine .check rfl not_le.mp fun hsource => .next (not_lt.mpr hsource) ?_
  refine .check rfl not_fieldsLegal_iff.mp fun hfields => .next (fun h => not_fieldsLegal_iff.mpr h hfields) ?_
  refine .check rfl Classical.not_imp.mp fun hlayers => .next (fun h => h.2 (hlayers h.1)) ?_
  refine .value rfl (fun hnone start size hrb => ?_) fun rb hrb => ?_
  · rw [hnone] at hrb
    cases hrb
  refine .check rfl (fun hsmooth start size hrb' => ?_) fun hsmooth => .next (fun h => ?_) ?_
  · obtain rfl : rb = (start, size) := Option.some_inj.mp (hrb.symm.trans hrb')
    simpa using hsmooth
  · obtain ⟨htp, hrough⟩ := h rb.1 rb.2 hrb
    simp [hsmooth htp] at hrough
  refine .check rfl (fun hqm => ?_) fun hqm => .next (fun h => h ?_) ?_
  · simpa [GrantFails] using hqm
  · simpa using hqm
  refine .value rfl (fun hnone start len hsl => ?_) fun sl hsl => ?_
  · rw [hnone] at hsl
    cases hsl
  refine .value rfl (fun hnone start len hsl' => ?_) fun d hd => .next (fun h => ?_) ?_
  · obtain rfl : sl = (start, len) := Option.some_inj.mp (hsl.symm.trans hsl')
    exact dmrs_fails_of_dmrsOf_eq_none hnone
  · exact not_dmrs_fails_of_dmrsOf hd (h sl.1 sl.2 hsl)
  refine .check rfl (fun hw => ?_) fun hw => .next (fun h => ?_) ?_
  · simpa [GrantFails] using hw
  · obtain ⟨hg, htpmi, hnone⟩ := h
    simp [hnone] at hw
    exact htpmi (hw hg)
  refine .check rfl (fun htbs => ?_) fun htbs => .next (fun h => htbs ?_) ?_
  · rcases grantTbs_eq_zero_iff.mp (not_not.mp htbs) with hold | ⟨hnew, hzero⟩
    · exact .inl hold
    · refine .inr ⟨hnew, fun rb' sl' d' hrb' hsl' hd' => ?_⟩
      obtain rfl : rb = rb' := Option.some_inj.mp (hrb.symm.trans hrb')
      obtain rfl : sl = sl' := Option.some_inj.mp (hsl.symm.trans hsl')
      obtain rfl : d = d' := Option.some_inj.mp (hd.symm.trans hd')
      exact hzero
  · refine grantTbs_eq_zero_iff.mpr (h.imp_right ?_)
    rintro ⟨hnew, hzero⟩
    exact ⟨hnew, hzero rb sl d hrb hsl hd⟩
  exact .pass

/-- A grant is accepted where no check fails, and ends with the status of the first that fails elsewhere (R661). -/
theorem evalGrant_cases (s : State) (g : Grant) : ((∃ x, evalGrant s g = .ok x) ∧ ∀ n, ¬GrantFails s g n) ∨
    ∃ n, FirstGrantFailure s g n ∧ evalGrant s g = .error (grantStatus n) :=
  evalGrant_endsFrom s g fun m hm => by
    obtain rfl : m = 0 := by omega
    exact id

theorem FirstGrantFailure.unique {n m : Nat} (hn : FirstGrantFailure s g n) (hm : FirstGrantFailure s g m) : n = m :=
  le_antisymm (not_lt.mp fun h => hn.2 m h hm.1) (not_lt.mp fun h => hm.2 n h hn.1)

theorem evalGrant_ok_iff : (∃ x, evalGrant s g = .ok x) ↔ ∀ n, ¬GrantFails s g n := by
  rcases evalGrant_cases s g with ⟨hok, hnone⟩ | ⟨n, hfirst, herr⟩
  · exact iff_of_true hok hnone
  · refine iff_of_false ?_ fun h => h n hfirst.1
    rintro ⟨x, hx⟩
    rw [hx] at herr
    cases herr

theorem evalGrant_of_firstFailure {n : Nat} (h : FirstGrantFailure s g n) : evalGrant s g = .error (grantStatus n) := by
  rcases evalGrant_cases s g with ⟨-, hnone⟩ | ⟨m, hm, herr⟩
  · exact absurd h.1 (hnone n)
  · rw [h.unique hm, herr]

end

/-! #### PUSCH_BUILD on a reserved PUSCH entry (R660 to R662) -/

/-- The descriptor and the handle of PUSCH_BUILD pass the checks before the grant's own (R660): the handle, ARG0, names
a reserved PUSCH entry of a slot whose lock the port holds. -/
structure BuildReady (s : State) (daddr : Nat) (g : Grant) (k e : Nat) : Prop where
  done : s.initDone = true
  desc : RegionOk s (4 * daddr) 32 4
  grant : g = grantOfBytes (readBytes s.mem (4 * daddr) 32)
  reserved : memRead s.mem (4 * daddr + 0x13) 1 = 0 ∧ memRead s.mem (4 * daddr + 0x1E) 2 = 0
  range : g.rxFrame ≤ 1023 ∧ g.rxSlot < s.spf
  payload : g.payloadAddr < 2 ^ 26
  handle : s.port.arg0.toNat < 0xFFFF
  slot : k = bits s.port.arg0.toNat 15 8
  entry : e = bits s.port.arg0.toNat 7 0
  bounds : k < s.spf ∧ e ≤ s.build.nPdu
  lock : (s.slotRec k).lock = some s.cur
  pusch : e < (s.slotRec k).numberPdus ∧ ((s.slotRec k).entry e).pduType = 3

/-- How PUSCH_BUILD ends once the grant is evaluated. -/
def State.endGrant (g : Grant) (k e : Nat) (s : State) : Except Int Alloc → State
  | .error code => s.skipGrant code (s.slotRec k).tagFrame k
  | .ok x => s.buildGrant g x k e

theorem exec_puschBuild_of_ready {s : State} {daddr : Nat} {g : Grant} {k e : Nat} (h : BuildReady s daddr g k e) :
    exec (.puschBuild daddr) s = .next (s.endGrant g k e (evalGrant s g)) := by
  obtain ⟨hd, hr, rfl, ⟨hres1, hres2⟩, hrange, hpay, hlow, rfl, rfl, ⟨hk, he⟩, hlock, hentry⟩ := h
  have hzero : grantReserved (readBytes s.mem (4 * daddr) 32) = 0 := by
    rw [(grantOfBytes_readBytes s.mem (4 * daddr)).1, hres1, hres2]
  refine exec_of_body_ok (require_bind_eq hd (readDesc_bind_eq hr (require_bind_eq hzero (require_bind_eq hrange
    (require_bind_eq hpay (require_bind_eq (by omega) (require_bind_eq (by omega)
    (checkHandle_bind_eq (by omega) hk he hlock (require_bind_eq hentry ?_)))))))))
  cases evalGrant s (grantOfBytes (readBytes s.mem (4 * daddr) 32)) <;> rfl

/-- Settles O45: a grant that `evalGrant` accepts is built. -/
theorem puschBuildFillsTheEntry : Obligations.PuschBuildFillsTheEntry := by
  intro s daddr x hd hr g h k e p hres1 hres2 hframe hslot hpay hlow hk he hlock hcount htype hx
  rw [exec_puschBuild_of_ready ⟨hd, hr, rfl, ⟨hres1, hres2⟩, ⟨hframe, hslot⟩, hpay, hlow, rfl, rfl, ⟨hk, he⟩, hlock,
    ⟨hcount, htype⟩⟩, hx]
  simp only [State.endGrant, State.buildGrant, State.ret, State.setRes0, State.setRes1, State.modPort,
    List.modify_modify_eq]
  rfl

/-- Settles O46: a grant whose first failing check is `n` is skipped with the status of that check. -/
theorem puschBuildSkipsABadGrant : Obligations.PuschBuildSkipsABadGrant := by
  refine ⟨fun s g => evalGrant_ok_iff, ?_⟩
  intro s daddr n hd hr g h k e hres1 hres2 hframe hslot hpay hlow hk he hlock hcount htype hfirst
  rw [exec_puschBuild_of_ready ⟨hd, hr, rfl, ⟨hres1, hres2⟩, ⟨hframe, hslot⟩, hpay, hlow, rfl, rfl, ⟨hk, he⟩, hlock,
    ⟨hcount, htype⟩⟩, evalGrant_of_firstFailure hfirst]
  rfl

/-! #### Retransmissions (R603, R636) -/

/-- Settles O47: a retransmission takes its TBS and code rate from its process, so check 8 fails where that has none. -/
theorem retransmissionReusesTheCachedTbs : Obligations.RetransmissionReusesTheCachedTbs := by
  intro s g hsource hndi hsame
  have hrar : g.isRar = false := by
    simp only [Grant.isRar, Bool.or_eq_false_iff, beq_eq_false_iff_ne]
    omega
  have hpid : g.pid = g.harqPid := by simp [Grant.pid, hrar]
  have hold : g.newData (s.harqEntry g.pid) = false := by
    simp [Grant.newData, hrar, hpid, hndi, hsame, ndiNone]
  refine ⟨fun x hx => ?_, fun hzero => ⟨fun hpass => ?_, fun n _ hfirst => evalGrant_of_firstFailure hfirst⟩⟩
  · have hacc := accepted_of_evalGrant hx
    have htbs := hacc.tbs
    have hrate := hacc.rate
    rw [hold, hpid] at htbs hrate
    exact ⟨htbs, hacc.tbs_ne, hrate, hacc.row⟩
  · have hfail : GrantFails s g 8 := .inl ⟨hold, hpid ▸ hzero⟩
    exact evalGrant_of_firstFailure ⟨hfail, hpass⟩

end Sys2Proof.Machine
end
section
/-! ### The PDU that PUSCH_BUILD makes (spec/42_pusch_builder.md R629 to R650, R663) -/

namespace Sys2Proof.Machine

-- One proof after another, so that the threads of the whole text stay within the memory limit.
set_option Elab.async false

/-! #### Bit maps -/

/-- The number below `2 ^ n` whose bits are the members of `l`. -/
def maskSum (n : Nat) (l : List Nat) : Nat := ((List.range n).map fun i => if i ∈ l then 2 ^ i else 0).sum

theorem maskSum_succ (n : Nat) (l : List Nat) :
    maskSum (n + 1) l = maskSum n l + 2 ^ n * (if n ∈ l then 1 else 0) := by
  simp [maskSum, List.range_succ]

theorem maskSum_lt (n : Nat) (l : List Nat) : maskSum n l < 2 ^ n := by
  induction n with
  | zero => exact Nat.one_pos
  | succ n ih =>
    rw [maskSum_succ, pow_succ]
    split_ifs <;> omega

theorem testBit_maskSum (n : Nat) (l : List Nat) (k : Nat) : (maskSum n l).testBit k = decide (k < n ∧ k ∈ l) := by
  induction n with
  | zero => simp [maskSum]
  | succ n ih =>
    rw [maskSum_succ, Nat.add_comm, Nat.two_pow_add_eq_or_of_lt (maskSum_lt n l), Nat.testBit_or, ih]
    have hlow : k < n + 1 ↔ k = n ∨ k < n := by omega
    by_cases hk : k = n
    · subst hk
      split_ifs with hmem <;> simp [hmem]
    · have hbit : (2 ^ n * if n ∈ l then 1 else 0).testBit k = false := by
        split_ifs
        · rw [Nat.mul_one, Nat.testBit_two_pow]
          exact decide_eq_false (Ne.symm hk)
        · simp
      rw [hbit]
      simp [hlow, hk]

theorem getLsbD_maskOf (w : Nat) (l : List Nat) (k : Nat) : (maskOf w l).getLsbD k = decide (k < w ∧ k ∈ l) := by
  have h : maskOf w l = BitVec.ofNat w (maskSum w l) := rfl
  rw [h, BitVec.getLsbD_ofNat, testBit_maskSum]
  simp

theorem getLsbD_pduBitMapOf (uci ptrs tp : Bool) (k : Nat) :
    (pduBitMapOf uci ptrs tp).getLsbD k = (k == 0 || (k == 1 && uci) || (k == 2 && ptrs) || (k == 3 && tp)) := by
  by_cases hk : k < 16
  · have hsmall : ∀ (uci ptrs tp : Bool) (k : Fin 16), (pduBitMapOf uci ptrs tp).getLsbD k.val =
        (k.val == 0 || (k.val == 1 && uci) || (k.val == 2 && ptrs) || (k.val == 3 && tp)) := by decide
    exact hsmall uci ptrs tp ⟨k, hk⟩
  · rw [BitVec.getLsbD_of_ge _ _ (not_lt.mp hk)]
    have h0 : k ≠ 0 := by omega
    have h1 : k ≠ 1 := by omega
    have h2 : k ≠ 2 := by omega
    have h3 : k ≠ 3 := by omega
    simp [h0, h1, h2, h3]

/-! #### DMRS symbols (R632) -/

/-- The first symbols of the DMRS, relative to the base (R632). -/
def dmrsFront (mt ld ap l0 : Nat) (double : Bool) : List Nat :=
  if ap = 0 then [l0] else Config.dmrsPosTable mt ld ap l0 double

theorem mem_dmrsRelative {mt ld ap l0 : Nat} {double : Bool} {q : Nat} : q ∈ dmrsRelative mt ld ap l0 double ↔
    ∃ f ∈ dmrsFront mt ld ap l0 double, q = f ∨ (double = true ∧ q = f + 1) := by
  have hdef : dmrsRelative mt ld ap l0 double = if double then
    dmrsFront mt ld ap l0 double ++ (dmrsFront mt ld ap l0 double).map (· + 1) else dmrsFront mt ld ap l0 double := rfl
  rw [hdef]
  cases double
  · simp
  · simp only [if_true, List.mem_append, List.mem_map, true_and]
    constructor
    · rintro (h | ⟨f, hf, rfl⟩)
      · exact ⟨q, h, .inl rfl⟩
      · exact ⟨f, hf, .inr rfl⟩
    · rintro ⟨f, hf, rfl | rfl⟩
      · exact .inl hf
      · exact .inr ⟨f, hf, rfl⟩

theorem Dmrs.getLsbD_mask (d : Dmrs) (k : Nat) : d.mask.getLsbD k = decide (k < 16 ∧ k ∈ d.symbols) :=
  getLsbD_maskOf 16 d.symbols k

/-! #### PTRS (R645 to R649) -/

section
variable {dm : Nat → Bool} {density len : Nat}

/-- The window of a turn of the loop ends at the symbol it may take, so it holds that symbol. -/
theorem ptrsWindow_le (hdensity : 0 < density) (i ref : Nat) :
    (if i = 0 then ref else ref + (i - 1) * density + 1) ≤ ref + i * density := by
  split_ifs with hi
  · exact Nat.le_add_right ..
  · obtain ⟨j, rfl⟩ := Nat.exists_eq_succ_of_ne_zero hi
    rw [Nat.succ_mul, Nat.succ_sub_one]
    omega

/-- Each PTRS symbol lies in the PUSCH and holds no DMRS. -/
theorem ptrsLoop_inside (hdensity : 0 < density) {fuel i ref t : Nat} (h : t ∈ ptrsLoop dm density len fuel i ref) :
    t < len ∧ dm t = false := by
  induction fuel generalizing i ref with
  | zero => cases h
  | succ fuel ih =>
    unfold ptrsLoop at h
    extract_lets hi lo at h
    split_ifs at h with hlen
    · cases h
    split at h
    · exact ih h
    · rename_i hnone
      rcases List.mem_cons.mp h with rfl | h
      · have hlo : lo ≤ hi := ptrsWindow_le hdensity i ref
        have hempty := List.filter_eq_nil_iff.mp (List.getLast?_eq_none_iff.mp hnone) hi
        exact ⟨not_le.mp hlen, Bool.eq_false_iff.mpr (hempty (List.mem_range'_1.mpr (by omega)))⟩
      · exact ih h

/-- With density 1 the window is one symbol wide, so every symbol without DMRS is a PTRS symbol. -/
theorem mem_ptrsLoop_one {fuel i ref t : Nat} (hfuel : len ≤ ref + i + fuel) :
    t ∈ ptrsLoop dm 1 len fuel i ref ↔ ref + i ≤ t ∧ t < len ∧ dm t = false := by
  induction fuel generalizing i ref with
  | zero =>
    simp [ptrsLoop]
    omega
  | succ fuel ih =>
    unfold ptrsLoop
    extract_lets hi lo
    have hhi : hi = ref + i := by simp [hi]
    have hlo : lo = hi := by
      simp only [lo, Nat.mul_one, hhi]
      split_ifs <;> omega
    rw [hlo, Nat.add_sub_cancel_left, List.range'_one]
    split_ifs with hlen
    · simp
      omega
    cases hdm : dm hi
    · rw [List.filter_cons_of_neg (by simp [hdm])]
      change t ∈ hi :: ptrsLoop dm 1 len fuel (i + 1) ref ↔ _
      rw [List.mem_cons, ih (by omega)]
      by_cases ht : t = hi
      · subst ht
        exact iff_of_true (.inl rfl) ⟨hhi.ge, not_le.mp hlen, hdm⟩
      · have hnext : ref + (i + 1) ≤ t ↔ ref + i ≤ t := by omega
        rw [hnext]
        simp [ht]
    · rw [List.filter_cons_of_pos hdm]
      change t ∈ ptrsLoop dm 1 len fuel 1 hi ↔ _
      rw [ih (by omega)]
      by_cases ht : t = hi
      · subst ht
        refine iff_of_false (fun h => ?_) fun h => ?_
        · omega
        · rw [hdm] at h
          cases h.2.2
      · have hnext : hi + 1 ≤ t ↔ ref + i ≤ t := by omega
        rw [hnext]

end

theorem getLsbD_ptrsSymbols (d : Dmrs) (density start len k : Nat) : (ptrsSymbols d density start len).getLsbD k =
    decide (k < 16 ∧ ∃ t ∈ ptrsLoop (fun t => decide (start + t ∈ d.symbols)) density len 15 0 0, start + t = k) := by
  rw [ptrsSymbols, getLsbD_maskOf]
  simp

section
variable {d : Dmrs} {density start len k : Nat}

theorem ptrsSymbols_inside (hdensity : 0 < density) (h : (ptrsSymbols d density start len).getLsbD k = true) :
    (start ≤ k ∧ k < start + len) ∧ k ∉ d.symbols := by
  rw [getLsbD_ptrsSymbols, decide_eq_true_eq] at h
  obtain ⟨-, t, ht, rfl⟩ := h
  obtain ⟨hlen, hno⟩ := ptrsLoop_inside hdensity ht
  exact ⟨⟨by omega, by omega⟩, of_decide_eq_false hno⟩

theorem ptrsSymbols_one (hlen : start + len ≤ 14) (h : start ≤ k ∧ k < start + len) :
    (ptrsSymbols d 1 start len).getLsbD k = !decide (k ∈ d.symbols) := by
  rw [getLsbD_ptrsSymbols, ← decide_not, decide_eq_decide]
  obtain ⟨t, rfl⟩ : ∃ t, k = start + t := ⟨k - start, by omega⟩
  simp only [mem_ptrsLoop_one (show len ≤ 0 + 0 + 15 by omega), decide_eq_false_iff_not]
  constructor
  · rintro ⟨-, u, ⟨-, -, hno⟩, hu⟩
    rwa [hu] at hno
  · intro hno
    exact ⟨by omega, t, ⟨by omega, by omega, hno⟩, rfl⟩

end

section
variable {c : CfgRegs} {g : Grant}

theorem ptrsTimeDensity_mem {mcs l : Nat} (h : ptrsTimeDensity c mcs = some l) : l ∈ [1, 2, 4] := by
  unfold ptrsTimeDensity at h
  split_ifs at h <;> cases h <;> decide

theorem ptrsFreqDensity_mem {rbSize k : Nat} (h : ptrsFreqDensity c rbSize = some k) : k ∈ [2, 4] := by
  unfold ptrsFreqDensity at h
  split_ifs at h <;> cases h <;> decide

/-- The PTRS of a grant are on: R645, with both densities and at least one symbol. -/
theorem ptrsOf_eq_some_iff {d : Dmrs} {rbSize start len k l : Nat} {m : BitVec 16} :
    ptrsOf c g d rbSize start len = some (k, l, m) ↔
      (g.tp c = false ∧ c.ptrsEnabled = 1 ∧ g.source ≤ 1) ∧ ptrsTimeDensity c g.mcs = some l ∧
        ptrsFreqDensity c rbSize = some k ∧ m = ptrsSymbols d l start len ∧ m ≠ 0 := by
  unfold ptrsOf
  by_cases hallowed : g.tp c = false ∧ c.ptrsEnabled = 1 ∧ g.source ≤ 1
  · rw [if_pos hallowed]
    cases ptrsTimeDensity c g.mcs with
    | none => simp
    | some l' =>
      cases ptrsFreqDensity c rbSize with
      | none => simp
      | some k' =>
        dsimp only
        split_ifs with hzero
        · refine iff_of_false (by simp) ?_
          rintro ⟨-, hl, -, rfl, hne⟩
          cases hl
          exact hne hzero
        · constructor
          · intro h
            cases h
            exact ⟨hallowed, rfl, rfl, rfl, hzero⟩
          · rintro ⟨-, hl, hk, rfl, -⟩
            cases hl
            cases hk
            rfl
  · rw [if_neg hallowed]
    simp [hallowed]

theorem isSome_ptrsOf (d : Dmrs) (rbSize start len : Nat) : (ptrsOf c g d rbSize start len).isSome =
    (!g.tp c && c.ptrsEnabled == 1 && decide (g.source ≤ 1) && (ptrsTimeDensity c g.mcs).isSome &&
      (ptrsFreqDensity c rbSize).isSome && decide (ptrsSymbols d ((ptrsTimeDensity c g.mcs).getD 0) start len ≠ 0)) := by
  rw [Bool.eq_iff_iff, Option.isSome_iff_exists]
  simp only [Prod.exists, ptrsOf_eq_some_iff, Bool.and_eq_true, Bool.not_eq_true', beq_iff_eq, decide_eq_true_eq,
    Option.isSome_iff_exists]
  constructor
  · rintro ⟨k, l, m, ⟨htp, hon, hsource⟩, hl, hk, rfl, hne⟩
    rw [hl]
    exact ⟨⟨⟨⟨⟨htp, hon⟩, hsource⟩, l, rfl⟩, k, hk⟩, hne⟩
  · rintro ⟨⟨⟨⟨⟨htp, hon⟩, hsource⟩, l, hl⟩, k, hk⟩, hne⟩
    rw [hl] at hne
    exact ⟨k, l, _, ⟨htp, hon, hsource⟩, hl, hk, rfl, hne⟩

end

/-! #### The fields of the PDU (R663) -/

theorem flagNum_eq_one_iff (b : Bool) : flagNum b = 1 ↔ b = true := by cases b <;> decide

theorem flagNum_beq_one (b : Bool) : (flagNum b == 1) = b := by cases b <;> rfl

section
variable {s : State} {g : Grant} {x : Alloc}

theorem Accepted.len_le (h : Accepted s g x) : 1 ≤ x.len ∧ x.startSymbol + x.len ≤ 14 := by
  obtain ⟨hlen, hfit, -⟩ := (slivDecode_eq_some_iff _ _ _).mp h.symbols
  exact ⟨hlen, hfit⟩

theorem Accepted.dmrs_inside (h : Accepted s g x) {l : Nat} (hl : l ∈ x.dmrs.symbols) :
    x.startSymbol ≤ l ∧ l < x.startSymbol + x.len := (dmrsOf_eq_some_iff.mp h.dmrs).2.2 l hl

/-- The DMRS bit map holds exactly the DMRS symbols, all below 16. -/
theorem Accepted.getLsbD_mask (h : Accepted s g x) (k : Nat) : x.dmrs.mask.getLsbD k = decide (k ∈ x.dmrs.symbols) := by
  rw [Dmrs.getLsbD_mask, decide_eq_decide]
  refine ⟨And.right, fun hk => ⟨?_, hk⟩⟩
  have := h.dmrs_inside hk
  have := h.len_le.2
  omega

theorem newData_iff (e : HarqEntry) : g.newData e = true ↔ g.isRar = true ∨ e.lastNdi = 255 ∨ g.ndi ≠ e.lastNdi := by
  simp [Grant.newData, ndiNone, or_assoc]

/-- The PTRS bit map is empty or the symbols of R648 for a density of at least 1. -/
theorem ptrsSymbPos_cases (frame slot : Nat) : (builtPdu s g x frame slot).ptrsSymbPos = 0 ∨
    ∃ k l, ptrsOf s.cfg g x.dmrs x.rbSize x.startSymbol x.len = some (k, l, (builtPdu s g x frame slot).ptrsSymbPos) := by
  have hpos : (builtPdu s g x frame slot).ptrsSymbPos =
    ((ptrsOf s.cfg g x.dmrs x.rbSize x.startSymbol x.len).map fun p => p.2.2).getD 0 := rfl
  rw [hpos]
  cases ptrsOf s.cfg g x.dmrs x.rbSize x.startSymbol x.len with
  | none => exact .inl rfl
  | some p => exact .inr ⟨p.1, p.2.1, rfl⟩

/-- The DMRS of an accepted grant of DCI 0_1 (R630). -/
theorem Accepted.dmrs_dci01 (h : Accepted s g x) (hg : g.source = 1) : x.dmrs.dmrsType = s.cfg.dmrsType ∧
    ∃ r, portRow s.cfg g = some r ∧ x.dmrs.cdm = r.cdmPred.val + 1 ∧ x.dmrs.ports = r.ports.setWidth 16 ∧
      x.dmrs.double = r.double := by
  obtain ⟨hshape, -, -⟩ := dmrsOf_eq_some_iff.mp h.dmrs
  rw [dmrsShape_dci01 hg] at hshape
  split_ifs at hshape
  obtain ⟨r, hr, heq⟩ := Option.map_eq_some_iff.mp hshape
  simp only [Prod.mk.injEq] at heq
  obtain ⟨htype, hcdm, hports, hdouble⟩ := heq
  exact ⟨htype.symm, r, hr, hcdm.symm, hports.symm, hdouble.symm⟩

/-- The DMRS of every other accepted grant (R631). -/
theorem Accepted.dmrs_other (h : Accepted s g x) (hg : g.source ≠ 1) : x.dmrs.dmrsType = 1 ∧ x.dmrs.ports = 1 ∧
    x.dmrs.double = false ∧ x.dmrs.cdm = if g.tp s.cfg = false ∧ x.len ≤ 2 then 1 else 2 := by
  obtain ⟨hshape, -, -⟩ := dmrsOf_eq_some_iff.mp h.dmrs
  rw [dmrsShape_other hg] at hshape
  simp only [Option.some_inj, Prod.mk.injEq] at hshape
  obtain ⟨htype, hcdm, hports, hdouble⟩ := hshape
  exact ⟨htype.symm, hports.symm, hdouble.symm, hcdm.symm⟩

/-- The DMRS symbols of an accepted grant, from the front positions and the base (R632). -/
theorem Accepted.mem_symbols (h : Accepted s g x) (k : Nat) : k ∈ x.dmrs.symbols ↔
    ∃ q ∈ dmrsFront x.mt (if x.mt = 0 then x.startSymbol + x.len else x.len)
        (if g.isRar then s.cfg.msg3DmrsAddPos else s.cfg.dmrsAddPos) (if x.mt = 0 then s.cfg.dmrsTypeAPos else 0)
        x.dmrs.double,
      k = (if x.mt = 0 then 0 else x.startSymbol) + q ∨
        (x.dmrs.double = true ∧ k = (if x.mt = 0 then 0 else x.startSymbol) + (q + 1)) := by
  obtain ⟨-, hsymbols, -⟩ := dmrsOf_eq_some_iff.mp h.dmrs
  rw [hsymbols, dmrsSymbols]
  simp only [List.mem_map, mem_dmrsRelative]
  constructor
  · rintro ⟨q, ⟨f, hf, hq⟩, rfl⟩
    rcases hq with rfl | ⟨hdouble, rfl⟩
    · exact ⟨q, hf, .inl rfl⟩
    · exact ⟨f, hf, .inr ⟨hdouble, rfl⟩⟩
  · rintro ⟨f, hf, rfl | ⟨hdouble, rfl⟩⟩
    · exact ⟨f, ⟨f, hf, .inl rfl⟩, rfl⟩
    · exact ⟨f + 1, ⟨f, hf, .inr ⟨hdouble, rfl⟩⟩, rfl⟩

theorem Accepted.tbs_new (h : Accepted s g x) (hnew : g.newData (s.harqEntry g.pid) = true) :
    x.codeRate = x.row.rate.val ∧
      x.tbsBytes = tbsCompute (dataRes x.dmrs x.len x.rbSize) x.row.rate.val x.row.qm.val g.layers / 8 :=
  ⟨h.rate.trans (if_pos hnew), h.tbs.trans (if_pos hnew)⟩

theorem Accepted.tbs_old (h : Accepted s g x) (hold : ¬g.newData (s.harqEntry g.pid) = true) :
    x.codeRate = (s.harqEntry g.pid).codeRate ∧ x.tbsBytes = (s.harqEntry g.pid).tbsBytes :=
  ⟨h.rate.trans (if_neg hold), h.tbs.trans (if_neg hold)⟩

theorem getLsbD_pduBitMap (frame slot k : Nat) : (builtPdu s g x frame slot).pduBitMap.getLsbD k =
    (k == 0 || (k == 1 && (g.harqAckBits != 0 || g.csiP1Bits != 0 || g.csiP2Bits != 0)) ||
      (k == 2 && (ptrsOf s.cfg g x.dmrs x.rbSize x.startSymbol x.len).isSome) || (k == 3 && g.tp s.cfg)) := by
  refine (getLsbD_pduBitMapOf ..).trans ?_
  simp only [decide_not]
  rfl

/-- The PTRS fields of the PDU where PTRS are on. -/
theorem builtPdu_ptrs {k l : Nat} {m : BitVec 16}
    (h : ptrsOf s.cfg g x.dmrs x.rbSize x.startSymbol x.len = some (k, l, m)) (frame slot : Nat) :
    let p := builtPdu s g x frame slot
    p.ptrsK = k ∧ p.ptrsL = l ∧ p.ptrsSymbPos = m ∧ p.ptrsReOffset = s.cfg.ptrsReOffset := by
  simp [builtPdu, pduWithoutPower, h]

/-- The PTRS fields of the PDU where PTRS are off. -/
theorem builtPdu_no_ptrs (h : ptrsOf s.cfg g x.dmrs x.rbSize x.startSymbol x.len = none) (frame slot : Nat) :
    let p := builtPdu s g x frame slot
    p.ptrsK = 0 ∧ p.ptrsL = 0 ∧ p.ptrsSymbPos = 0 ∧ p.ptrsReOffset = 0 := by
  simp [builtPdu, pduWithoutPower, h]

/-- Each PTRS symbol of the PDU lies in the allocation and holds no DMRS (R648). -/
theorem builtPdu_ptrs_inside (frame slot : Nat) {k : Nat} (hk : (builtPdu s g x frame slot).ptrsSymbPos.getLsbD k = true) :
    (x.startSymbol ≤ k ∧ k < x.startSymbol + x.len) ∧ k ∉ x.dmrs.symbols := by
  rcases ptrsSymbPos_cases (s := s) (g := g) (x := x) frame slot with hzero | ⟨K, L, hon⟩
  · rw [hzero] at hk
    simp at hk
  · obtain ⟨-, hL, -, hsymbols, -⟩ := ptrsOf_eq_some_iff.mp hon
    rw [hsymbols] at hk
    refine ptrsSymbols_inside (Nat.pos_of_ne_zero ?_) hk
    rintro rfl
    exact absurd (ptrsTimeDensity_mem hL) (by decide)

end

/-- Settles O48: every field of the PDU is one of the allocation, the grant or the configuration. -/
theorem builtPduHoldsItsFields : Obligations.BuiltPduHoldsItsFields := by
  intro s g x frame slot hx c p rar tp layers tcode pid h row tr S len scid ap l0 ld front base nRe Lp K positions on
  have hacc := accepted_of_evalGrant hx
  have hon : (ptrsOf s.cfg g x.dmrs x.rbSize x.startSymbol x.len).isSome = on := isSome_ptrsOf ..
  have hmask : ∀ k, p.ulDmrsSymbPos.getLsbD k = decide (k ∈ x.dmrs.symbols) := hacc.getLsbD_mask
  have hdouble : p.dmrsDouble = 1 ↔ x.dmrs.double = true := flagNum_eq_one_iff _
  refine ⟨fun k => ?_, rfl, rfl, rfl, hacc.rb, hacc.symbols, rfl, rfl, congrArg (fun r => r.qm.val) hacc.row, rfl,
    fun hnew => ?_, fun hold => hacc.tbs_old fun hnew => hold ((newData_iff _).mp hnew), rfl, rfl, rfl, rfl, fun hg => ?_,
    fun hg => ?_, fun k => ?_, fun k hk => ?_, rfl, rfl, fun hison => ?_, fun hoff => ?_, fun k hk => ?_,
    fun hison hone k hlo hhi => ?_, rfl, rfl, rfl, rfl, fun _ => rfl, hacc.mt, rfl, rfl, rfl, rfl, rfl, rfl, rfl⟩
  · rw [← hon]
    exact getLsbD_pduBitMap frame slot k
  · have htbs := hacc.tbs_new ((newData_iff _).mpr hnew)
    rw [hacc.row] at htbs
    exact htbs
  · obtain ⟨htype, r, hr, hcdm, hports, hd⟩ := hacc.dmrs_dci01 hg
    exact ⟨htype, r, hr, hcdm, hports, congrArg flagNum hd⟩
  · obtain ⟨htype, hports, hd, hcdm⟩ := hacc.dmrs_other hg
    exact ⟨htype, hports, congrArg flagNum hd, hcdm⟩
  · have hfront : front = dmrsFront tr.mappingType ld ap l0 x.dmrs.double :=
      congrArg (dmrsFront tr.mappingType ld ap l0) (flagNum_beq_one _)
    have hsymbols := hacc.mem_symbols k
    rw [hacc.mt] at hsymbols
    rw [hmask, decide_eq_decide, hfront]
    simp only [hdouble]
    exact hsymbols
  · exact hacc.dmrs_inside (of_decide_eq_true ((hmask k).symm.trans hk))
  · obtain ⟨⟨k, l, m⟩, hpt⟩ := Option.isSome_iff_exists.mp (hon.trans hison)
    obtain ⟨hk, hl, hm, hoffset⟩ := builtPdu_ptrs hpt frame slot
    obtain ⟨-, htime, hfreq, hsymbols, -⟩ := ptrsOf_eq_some_iff.mp hpt
    have hL : Lp = some l := htime
    refine ⟨hfreq.trans (congrArg some hk.symm), hL.trans (congrArg some hl.symm), ?_, hoffset⟩
    rw [hm, hsymbols]
    simp only [positions, hL]
    rfl
  · exact builtPdu_no_ptrs (Option.not_isSome_iff_eq_none.mp (Bool.eq_false_iff.mp (hon.trans hoff))) frame slot
  · obtain ⟨⟨hlo, hhi⟩, hno⟩ := builtPdu_ptrs_inside frame slot hk
    exact ⟨hlo, hhi, (hmask k).trans (decide_eq_false hno)⟩
  · obtain ⟨⟨k', l, m⟩, hpt⟩ := Option.isSome_iff_exists.mp (hon.trans hison)
    obtain ⟨-, hl, hm, -⟩ := builtPdu_ptrs hpt frame slot
    obtain ⟨-, -, -, hsymbols, -⟩ := ptrsOf_eq_some_iff.mp hpt
    obtain rfl : l = 1 := hl.symm.trans hone
    rw [hmask, hm, hsymbols]
    exact ptrsSymbols_one hacc.len_le.2 ⟨hlo, hhi⟩

end Sys2Proof.Machine
end
section
/-! ### The PDU that PUSCH_BUILD makes against the checks of MAP_PUSCH (spec/42_pusch_builder.md R630, R631,
spec/43_re_mapper.md R701) -/

namespace Sys2Proof.Machine

-- One proof after another, so that the threads of the whole text stay within the memory limit.
set_option Elab.async false

/-! #### The fixed rows of the antenna-port table (R630) -/

/-- CDM groups and ports of DMRS type 1 that pass checks 5 and 8 of R701: one port for each layer, each in a group without
data, and two such groups under transform precoding. -/
def portsFit (tp : Bool) (layers cdm : Nat) (ports : BitVec 16) : Bool := decide
  ((1 ≤ cdm ∧ cdm ≤ 2) ∧ (tp = true → cdm = 2) ∧ popcount ports = layers) &&
  (setBits ports).all fun q => decide (q < 8 ∧ q / 2 % 2 < cdm)

theorem portsFit_iff {tp : Bool} {layers cdm : Nat} {ports : BitVec 16} : portsFit tp layers cdm ports = true ↔
    (1 ≤ cdm ∧ cdm ≤ 2) ∧ (tp = true → cdm = 2) ∧ (List.range 16).countP (fun q => ports.getLsbD q) = layers ∧
      ∀ q, ports.getLsbD q = true → q < 8 ∧ q / 2 % 2 < cdm := by
  simp only [portsFit, Bool.and_eq_true, all_setBits_iff, decide_eq_true_eq, and_assoc]
  rfl

/-- An antenna-port row, if it is one, is single-symbol and its ports pass the checks. -/
def rowFits (tp : Bool) (layers : Nat) : Option AntPortRow → Bool
  | none => true
  | some r => !r.double && portsFit tp layers (r.cdmPred.val + 1) (r.ports.setWidth 16)

theorem rowFits_getD {tp : Bool} {layers : Nat} {l : List (Option AntPortRow)}
    (h : ∀ o ∈ l, rowFits tp layers o = true) (v : Nat) : rowFits tp layers (l.getD v none) = true := by
  rw [List.getD_eq_getElem?_getD]
  cases hv : l[v]? with
  | none => rfl
  | some o => exact h o (List.mem_of_getElem? hv)

/-- The rows the spec gives for DMRS type 1 and maximum length 1. -/
theorem antPortLookup_fits {tp : Bool} {layers : Nat} (hlayers : 1 ≤ layers ∧ layers ≤ 4)
    (htp : tp = true → layers = 1) (v : Nat) : rowFits tp layers (antPortLookup tp 1 1 layers v) = true := by
  cases tp with
  | true =>
    obtain rfl := htp rfl
    exact rowFits_getD (by decide) v
  | false =>
    obtain rfl | rfl | rfl | rfl : layers = 1 ∨ layers = 2 ∨ layers = 3 ∨ layers = 4 := by omega
    · exact rowFits_getD (by decide) v
    · exact rowFits_getD (by decide) v
    · exact rowFits_getD (by decide) v
    · exact rowFits_getD (by decide) v

/-! #### The fields of an accepted grant under a legal configuration -/

theorem CfgRegs.legal_bounds {c : CfgRegs} (h : c.legal = true) :
    (1 ≤ c.bwpSize ∧ c.bwpStart + c.bwpSize ≤ c.nRbCarrier) ∧ c.maxRank ≤ 4 ∧ c.ptrsReOffset ≤ 3 := by
  obtain ⟨-, -, -, -, -, -, -, hsize, hbwp, -, -, hrank, -, -, -, -, -, -, -, -, -, -, -, hoffset, -⟩ := c.legal_iff.mp h
  exact ⟨⟨hsize, hbwp⟩, hrank, hoffset⟩

section
variable {s : State} {g : Grant} {x : Alloc}

theorem Accepted.layers_le (h : Accepted s g x) (hc : s.cfg.legal = true) : 1 ≤ g.layers ∧ g.layers ≤ 4 := by
  have hrank := (CfgRegs.legal_bounds hc).2.1
  have hfields := h.fields
  simp only [Grant.fieldsLegal, decide_eq_true_eq] at hfields
  obtain ⟨-, -, -, -, -, -, -, -, -, -, hlayers⟩ := hfields
  unfold Grant.layers
  split_ifs with hg
  · obtain ⟨h1, hmax⟩ := hlayers hg
    omega
  · decide

/-- Where the DMRS comes from the rows the spec gives, it is a single-symbol DMRS of type 1 whose ports fit. -/
theorem Accepted.dmrs_fits (h : Accepted s g x) (hc : s.cfg.legal = true)
    (hfixed : g.source = 1 → s.cfg.dmrsType = 1 ∧ s.cfg.dmrsMaxLength = 1) :
    x.dmrs.dmrsType = 1 ∧ x.dmrs.double = false ∧ portsFit (g.tp s.cfg) g.layers x.dmrs.cdm x.dmrs.ports = true := by
  by_cases hg : g.source = 1
  · obtain ⟨htype, hmax⟩ := hfixed hg
    obtain ⟨hd, r, hr, hcdm, hports, hdouble⟩ := h.dmrs_dci01 hg
    have hfits := antPortLookup_fits (h.layers_le hc) h.layers g.antennaPorts
    rw [portRow, htype, hmax] at hr
    rw [hr, rowFits, Bool.and_eq_true, Bool.not_eq_true'] at hfits
    rw [hd, hcdm, hports, hdouble]
    exact ⟨htype, hfits⟩
  · obtain ⟨hd, hports, hdouble, hcdm⟩ := h.dmrs_other hg
    have hone : g.layers = 1 := if_neg hg
    rw [hd, hcdm, hports, hdouble, hone]
    refine ⟨rfl, rfl, ?_⟩
    split_ifs with hshort
    · rw [hshort.1]
      decide
    · cases g.tp s.cfg <;> decide

/-- Without additional positions the DMRS has its first symbol (R632). -/
theorem Accepted.exists_symbol (h : Accepted s g x) (hadd : s.cfg.dmrsAddPos = 0) (hmsg3 : s.cfg.msg3DmrsAddPos = 0) :
    ∃ k, k ∈ x.dmrs.symbols := by
  refine ⟨_, (h.mem_symbols _).mpr ⟨if x.mt = 0 then s.cfg.dmrsTypeAPos else 0, ?_, .inl rfl⟩⟩
  rw [dmrsFront, if_pos (by split_ifs <;> assumption)]
  exact List.mem_singleton_self _

theorem builtPdu_allocLegal (h : Accepted s g x) (hc : s.cfg.legal = true) (frame slot : Nat) :
    (builtPdu s g x frame slot).allocLegal s.cfg = true := by
  obtain ⟨hrb, hfit, -⟩ := rivDecode_eq_some_iff.mp h.rb
  have hhigh : ∀ k, 4 ≤ k → (builtPdu s g x frame slot).pduBitMap.getLsbD k = false := fun k hk => by
    obtain ⟨j, rfl⟩ : ∃ j, k = j + 4 := ⟨k - 4, by omega⟩
    rw [getLsbD_pduBitMap]
    simp
  refine (Pdu.allocLegal_iff ..).mpr ⟨⟨rfl, hhigh, ?_, ?_⟩, ⟨(CfgRegs.legal_bounds hc).1.1, (CfgRegs.legal_bounds hc).1.2,
    hrb, hfit⟩, h.len_le⟩
  · rw [getLsbD_pduBitMap]
    rfl
  · rw [getLsbD_pduBitMap]
    rfl

theorem builtPdu_dmrsLegal (h : Accepted s g x) (hc : s.cfg.legal = true)
    (hfixed : g.source = 1 → s.cfg.dmrsType = 1 ∧ s.cfg.dmrsMaxLength = 1) (hsymbol : ∃ k, k ∈ x.dmrs.symbols)
    (frame slot : Nat) : (builtPdu s g x frame slot).dmrsLegal = true := by
  obtain ⟨htype, hdouble, hfits⟩ := h.dmrs_fits hc hfixed
  obtain ⟨⟨hcdm1, hcdm2⟩, -, hcount, hports⟩ := portsFit_iff.mp hfits
  obtain ⟨h1, h4⟩ := h.layers_le hc
  have hmask : ∀ k, (builtPdu s g x frame slot).ulDmrsSymbPos.getLsbD k = decide (k ∈ x.dmrs.symbols) := h.getLsbD_mask
  have htype' : (builtPdu s g x frame slot).dmrsConfigType = 1 := htype
  have hzero : (builtPdu s g x frame slot).dmrsDouble = 0 := congrArg flagNum hdouble
  have hlen := h.len_le.2
  refine (Pdu.dmrsLegal_iff hlen).mpr ⟨⟨h1, h4, by simp [htype'], hcdm1, ?_⟩, ⟨hcount, fun q hq => ?_⟩, ?_, fun l hl => ?_,
    by omega, by omega⟩
  · rw [if_pos htype']
    exact hcdm2
  · rw [if_pos htype', if_pos htype']
    exact hports q hq
  · obtain ⟨k, hk⟩ := hsymbol
    exact ⟨k, (hmask k).trans (decide_eq_true hk)⟩
  · have hin := h.dmrs_inside (of_decide_eq_true ((hmask l).symm.trans hl))
    exact ⟨by omega, hin⟩

theorem builtPdu_ptrsLegal (h : Accepted s g x) (hc : s.cfg.legal = true) (frame slot : Nat)
    (hon : (builtPdu s g x frame slot).pduBitMap.getLsbD 2 = true) :
    (builtPdu s g x frame slot).ptrsLegal = true := by
  have hsome : (ptrsOf s.cfg g x.dmrs x.rbSize x.startSymbol x.len).isSome = true := by
    rw [getLsbD_pduBitMap] at hon
    simpa using hon
  obtain ⟨⟨k, l, m⟩, hpt⟩ := Option.isSome_iff_exists.mp hsome
  obtain ⟨hk, hl, hm, hoffset⟩ := builtPdu_ptrs hpt frame slot
  obtain ⟨⟨htp, -, -⟩, htime, hfreq, -, hne⟩ := ptrsOf_eq_some_iff.mp hpt
  refine (Pdu.ptrsLegal_iff _).mpr ⟨congrArg flagNum htp, hk ▸ ptrsFreqDensity_mem hfreq, hl ▸ ptrsTimeDensity_mem htime,
    hoffset ▸ (CfgRegs.legal_bounds hc).2.2, (h.layers_le hc).1, (ne_zero_iff_exists_getLsbD _).mp (hm ▸ hne),
    fun j hj => ?_⟩
  obtain ⟨hin, hno⟩ := builtPdu_ptrs_inside frame slot hj
  refine ⟨hin, Bool.eq_false_iff.mp ?_⟩
  exact (h.getLsbD_mask j).trans (decide_eq_false hno)

end

/-- Settles O49: each check of MAP_PUSCH is one of the grant's own, or holds by the tables the spec gives. -/
theorem builtPduPassesTheMapperChecks : Obligations.BuiltPduPassesTheMapperChecks := by
  intro s g x frame slot hc hadd hmsg3 hfixed hx
  have hacc := accepted_of_evalGrant hx
  obtain ⟨htype, -, hfits⟩ := hacc.dmrs_fits hc hfixed
  obtain ⟨-, hcdm, -⟩ := portsFit_iff.mp hfits
  refine (Pdu.legal_iff ..).mpr ⟨builtPdu_allocLegal hacc hc frame slot,
    builtPdu_dmrsLegal hacc hc hfixed (hacc.exists_symbol hadd hmsg3) frame slot,
    builtPdu_ptrsLegal hacc hc frame slot, fun hflag => ?_⟩
  have htp : g.tp s.cfg = true := (flagNum_eq_one_iff _).mp hflag
  exact ⟨htype, hcdm htp, hacc.layers htp⟩

end Sys2Proof.Machine
end
section
/-! ### 16-bit arithmetic (spec/43_re_mapper.md R722, spec/45_llr.md R900, R902) -/

namespace Sys2Proof.Machine

-- One proof after another, so that the threads of the whole text stay within the memory limit.
set_option Elab.async false

/-- A value clamped to an i16 is held by 16 bits. -/
theorem satSub_toInt (a : BitVec 16) (b : Int) : (satSub a b).toInt = max (-32768) (min 32767 (a.toInt - b)) := by
  rw [satSub, BitVec.toInt_ofInt, Int.bmod_eq_of_le (by omega) (by omega)]
  omega

theorem ne_minI16 {a : BitVec 16} (h : a.toInt ≠ -32768) : a ≠ 0x8000 := by
  rintro rfl
  exact h (by decide)

theorem absI16_of_ne (m : AbsMin) {a : BitVec 16} (h : a.toInt ≠ -32768) : absI16 m a = |a.toInt| :=
  if_neg (ne_minI16 h)

theorem negI16_of_ne (m : NegMin) {a : BitVec 16} (h : a.toInt ≠ -32768) : (negI16 m a).toInt = -a.toInt := by
  unfold negI16
  rw [if_neg (ne_minI16 h)]
  exact BitVec.toInt_neg_of_ne_intMin (ne_minI16 h)

/-- Settles O60: away from -32768 the operations are exact, and there the OPEN choices are evaluated. -/
theorem sixteenBitArithmetic : Obligations.SixteenBitArithmetic :=
  ⟨satSub_toInt, fun m _ => absI16_of_ne m, by decide, by decide, by decide, fun m _ => negI16_of_ne m, by decide,
    by decide⟩

end Sys2Proof.Machine
end
section
/-! ### The data REs of an allocation (spec/43_re_mapper.md R730, R740, R741, R750, R752) -/

namespace Sys2Proof.Machine

-- One proof after another, so that the threads of the whole text stay within the memory limit.
set_option Elab.async false

/-! #### What R701 says of the parameter bundle -/

/-- The part of the checks of R701 that a bundle shows. -/
structure Bundle.Legal (b : Bundle) : Prop where
  symbols : b.startSymbol + b.len ≤ 14
  dmrs : (b.dtype = 1 ∧ b.cdm ≤ 2) ∨ (b.dtype = 2 ∧ b.cdm ≤ 3)
  ptrs : b.pt ≠ [] → 0 < b.ptrsK ∧ b.kRefRe < 12

/-- Every entry of the table of R740 is an RE of an RB. -/
theorem kRef_lt {dtype offset : Nat} (p : Nat) (ho : offset ≤ 3) : kRef dtype p offset < 12 := by
  have type1 : ∀ q < 4, ∀ o < 4,
      (([[0, 2, 6, 8], [2, 4, 8, 10], [1, 3, 7, 9], [3, 5, 9, 11]].getD q []).getD o 0) < 12 := by decide
  have type2 : ∀ q < 6, ∀ o < 4, (([[0, 1, 6, 7], [1, 6, 7, 0], [2, 3, 8, 9], [3, 8, 9, 2], [4, 5, 10, 11],
      [5, 10, 11, 4]].getD q []).getD o 0) < 12 := by decide
  unfold kRef
  split
  · exact type1 _ (Nat.mod_lt _ (by decide)) _ (by omega)
  · exact type2 _ (Nat.mod_lt _ (by decide)) _ (by omega)

theorem bundleOf_legal {c : CfgRegs} {p : Pdu} (h : p.legal c = true) : (bundleOf c p).Legal := by
  have hsymbols := Pdu.symbols_le h
  obtain ⟨-, hdmrs, hptrs, -⟩ := (p.legal_iff c).mp h
  obtain ⟨⟨-, -, htype, -, hcdm⟩, -⟩ := (Pdu.dmrsLegal_iff hsymbols).mp hdmrs
  refine ⟨hsymbols, ?_, fun hpt => ?_⟩
  · dsimp only [bundleOf]
    simp only [List.mem_cons, List.not_mem_nil, or_false] at htype
    split_ifs at hcdm <;> omega
  · have hon : p.hasPtrs = true := by
      by_contra hoff
      exact hpt (if_neg hoff)
    obtain ⟨-, hK, -, hoffset, -⟩ := p.ptrsLegal_iff.mp (hptrs hon)
    simp only [List.mem_cons, List.not_mem_nil, or_false] at hK
    have hpos : 0 < p.ptrsK := by omega
    exact ⟨hpos, kRef_lt _ hoffset⟩

/-! #### The REs of one RB -/

/-- Counting REs RB by RB. -/
theorem countP_range_rbs (f : Nat → Bool) (n : Nat) : (List.range (12 * n)).countP f =
    ((List.range n).map fun rb => (List.range 12).countP fun sc => f (12 * rb + sc)).sum := by
  induction n with
  | zero => rfl
  | succ n ih =>
    rw [Nat.mul_succ, List.range_add, List.countP_append, List.countP_map, ih, List.range_succ (n := n),
      List.map_append, List.sum_append]
    rfl

/-- The CDM group of an RE is that of its place in the RB. -/
theorem reGroup_rb (dtype rb sc : Nat) : reGroup dtype (12 * rb + sc) = reGroup dtype sc := by
  simp only [reGroup, Nat.mul_add_mod]

/-- REs of the CDM groups from `cdm` on, in one RB (R730). -/
theorem countP_reGroup_type1 :
    ∀ cdm ≤ 2, ((List.range 12).countP fun sc => decide (cdm ≤ reGroup 1 sc)) = 6 * (2 - cdm) := by decide

theorem countP_reGroup_type2 :
    ∀ cdm ≤ 3, ((List.range 12).countP fun sc => decide (cdm ≤ reGroup 2 sc)) = 4 * (3 - cdm) := by decide

theorem countP_reGroup (dtype cdm n : Nat) :
    ((List.range (12 * n)).countP fun k => decide (cdm ≤ reGroup dtype k)) =
      n * (List.range 12).countP fun sc => decide (cdm ≤ reGroup dtype sc) := by
  simp only [countP_range_rbs, reGroup_rb, List.map_const', List.sum_replicate, List.length_range, smul_eq_mul]

/-! #### PTRS -/

theorem ceilDiv_succ (a : Nat) {b : Nat} (hb : 0 < b) :
    ceilDiv (a + 1) b = ceilDiv a b + if a % b = 0 then 1 else 0 := by
  have hdvd : b ∣ a + b - 1 + 1 ↔ a % b = 0 := by
    rw [show a + b - 1 + 1 = a + b by omega, Nat.dvd_add_self_right, Nat.dvd_iff_mod_eq_zero]
  simp only [ceilDiv, ← hdvd, ← Nat.succ_div]
  congr 1
  omega

/-- The PTRS RBs below `n` are `ceil((n - k_ref_RB) / K)` (R740). -/
theorem sum_ptrsRbs (r n : Nat) {K : Nat} (hK : 0 < K) :
    ((List.range n).map fun rb => if r ≤ rb ∧ (rb - r) % K = 0 then 1 else 0).sum = ceilDiv (n - r) K := by
  induction n with
  | zero =>
    rw [Nat.zero_sub, ceilDiv, Nat.div_eq_of_lt (by omega)]
    rfl
  | succ n ih =>
    rw [List.range_succ, List.map_append, List.sum_append, ih]
    simp only [List.map_cons, List.map_nil, List.sum_cons, List.sum_nil, Nat.add_zero]
    by_cases hr : r ≤ n
    · rw [show n + 1 - r = n - r + 1 by omega, ceilDiv_succ _ hK]
      simp [hr]
    · rw [show n + 1 - r = n - r by omega, if_neg (fun h => hr h.1), Nat.add_zero]

section
variable {b : Bundle}

theorem Bundle.isPtrsRe_rb {rb sc : Nat} (hsc : sc < 12) :
    b.isPtrsRe (12 * rb + sc) = (decide (b.kRefRb ≤ rb ∧ (rb - b.kRefRb) % b.ptrsK = 0) && sc == b.kRefRe) := by
  have hrb : (12 * rb + sc) / 12 = rb := by omega
  have hre : (12 * rb + sc) % 12 = sc := by omega
  rw [Bundle.isPtrsRe, hrb, hre, Bool.eq_iff_iff]
  simp [and_assoc]

/-- An RB has one PTRS RE or none. -/
theorem Bundle.countP_isPtrsRe_rb (hre : b.kRefRe < 12) (rb : Nat) :
    ((List.range 12).countP fun sc => b.isPtrsRe (12 * rb + sc)) =
      if b.kRefRb ≤ rb ∧ (rb - b.kRefRb) % b.ptrsK = 0 then 1 else 0 := by
  rw [List.countP_congr fun sc hsc => by rw [Bundle.isPtrsRe_rb (List.mem_range.mp hsc)]]
  split_ifs with h
  · simp only [h, decide_true, Bool.true_and, and_self]
    exact List.count_eq_one_of_mem List.nodup_range (List.mem_range.mpr hre)
  · simp [h]

/-- The PTRS REs of a PTRS symbol number `N_pt` (R740, R741). -/
theorem Bundle.countP_isPtrsRe (hK : 0 < b.ptrsK) (hre : b.kRefRe < 12) :
    (List.range b.nSc).countP b.isPtrsRe = b.nPt := by
  simp only [Bundle.nSc, countP_range_rbs, Bundle.countP_isPtrsRe_rb hre]
  exact sum_ptrsRbs _ _ hK

/-! #### The data REs of a symbol and of the allocation -/

theorem Bundle.isDataRe_dmrs {l : Nat} (h : l ∈ b.dm) (k : Nat) :
    b.isDataRe l k = decide (b.cdm ≤ reGroup b.dtype k) := if_pos h

theorem Bundle.isDataRe_ptrs {l : Nat} (h : l ∉ b.dm) (h' : l ∈ b.pt) (k : Nat) :
    b.isDataRe l k = !b.isPtrsRe k := by
  rw [Bundle.isDataRe, if_neg h, if_pos h']

theorem Bundle.isDataRe_other {l : Nat} (h : l ∉ b.dm) (h' : l ∉ b.pt) (k : Nat) : b.isDataRe l k = true := by
  rw [Bundle.isDataRe, if_neg h, if_neg h']

/-- A DMRS symbol gives data the CDM groups from `cdm` on (R730, R752). -/
theorem Bundle.Legal.countP_isDataRe_dmrs (hb : b.Legal) {l : Nat} (h : l ∈ b.dm) :
    (List.range b.nSc).countP (b.isDataRe l) = b.dataResOf l := by
  rw [funext (Bundle.isDataRe_dmrs h), Bundle.nSc, countP_reGroup, Bundle.dataResOf, if_pos h, Bundle.nSc]
  rcases hb.dmrs with ⟨htype, hcdm⟩ | ⟨htype, hcdm⟩
  · rw [htype, countP_reGroup_type1 _ hcdm, if_pos rfl, show 12 * b.rbSize = b.rbSize * 6 * 2 by ring,
      Nat.mul_right_comm, Nat.mul_div_cancel _ (by decide), Nat.mul_assoc]
  · rw [htype, countP_reGroup_type2 _ hcdm, if_neg (by decide), show 12 * b.rbSize = b.rbSize * 4 * 3 by ring,
      Nat.mul_right_comm, Nat.mul_div_cancel _ (by decide), Nat.mul_assoc]

/-- A PTRS symbol gives data every RE but its PTRS REs (R741, R752). -/
theorem Bundle.Legal.countP_isDataRe_ptrs (hb : b.Legal) {l : Nat} (h : l ∉ b.dm) (h' : l ∈ b.pt) :
    (List.range b.nSc).countP (b.isDataRe l) = b.dataResOf l := by
  obtain ⟨hK, hre⟩ := hb.ptrs (List.ne_nil_of_mem h')
  have hall := List.length_eq_countP_add_countP b.isPtrsRe (l := List.range b.nSc)
  rw [List.length_range, Bundle.countP_isPtrsRe hK hre] at hall
  simp only [Bool.not_eq_true, Bool.decide_eq_false] at hall
  rw [funext (Bundle.isDataRe_ptrs h h'), Bundle.dataResOf, if_neg h, if_pos h']
  omega

theorem Bundle.Legal.countP_isDataRe (hb : b.Legal) (l : Nat) :
    (List.range b.nSc).countP (b.isDataRe l) = b.dataResOf l := by
  by_cases h : l ∈ b.dm
  · exact hb.countP_isDataRe_dmrs h
  · by_cases h' : l ∈ b.pt
    · exact hb.countP_isDataRe_ptrs h h'
    · rw [funext (Bundle.isDataRe_other h h'), Bundle.dataResOf, if_neg h, if_neg h', List.countP_true,
        List.length_range]

theorem Bundle.Legal.countP_res (hb : b.Legal) :
    b.res.countP (fun x => b.isDataRe x.1 x.2) = b.nData := by
  rw [Bundle.res, List.countP_flatMap, Bundle.nData]
  congr 1
  refine List.map_congr_left fun l _ => ?_
  rw [Function.comp_apply, List.countP_map]
  exact hb.countP_isDataRe l

end

/-- Settles O54: the sum over the symbols of the data REs of each. -/
theorem dataResNumberNData : Obligations.DataResNumberNData := fun _ _ h => (bundleOf_legal h).countP_res

end Sys2Proof.Machine
end
section
/-! ### What MAP_PUSCH writes (spec/43_re_mapper.md R703, R710, R713, R714, R720, R751) -/

namespace Sys2Proof.Machine

-- One proof after another, so that the threads of the whole text stay within the memory limit.
set_option Elab.async false

section
variable {b : Bundle} {m : NegMin} {t : Streams} {l k v : Nat}

/-! #### The order of the REs (R703, R751) -/

/-- RE `x` of an allocation is mapped before RE `y`. -/
abbrev ReBefore (x y : Nat × Nat) : Prop := x.1 < y.1 ∨ (x.1 = y.1 ∧ x.2 < y.2)

theorem Bundle.res_pairwise (b : Bundle) : b.res.Pairwise ReBefore := by
  refine List.pairwise_flatMap.mpr ⟨fun l _ => ?_, ?_⟩
  · exact List.pairwise_map.mpr (List.pairwise_lt_range.imp fun h => .inr ⟨rfl, h⟩)
  · refine (List.pairwise_lt_range' 1).imp fun h x hx y hy => ?_
    obtain ⟨k, -, rfl⟩ := List.mem_map.mp hx
    obtain ⟨k', -, rfl⟩ := List.mem_map.mp hy
    exact .inl h

theorem Bundle.res_nodup (b : Bundle) : b.res.Nodup := b.res_pairwise.imp fun h e => by
  rw [e] at h
  omega

/-- The data values taken before an RE are the data REs listed before it. -/
theorem Bundle.taken_eq_countP {pre post : List (Nat × Nat)} (h : b.res = pre ++ (l, k) :: post) :
    b.taken l k = pre.countP fun x => b.isDataRe x.1 x.2 := by
  have hpair := b.res_pairwise
  rw [h, List.pairwise_append, List.pairwise_cons] at hpair
  obtain ⟨-, ⟨hpost, -⟩, hpre⟩ := hpair
  have hafter : ((l, k) :: post).countP (fun x => decide (ReBefore x (l, k)) && b.isDataRe x.1 x.2) = 0 := by
    refine List.countP_eq_zero.mpr fun x hx => ?_
    have hnot : ¬ReBefore x (l, k) := by
      rcases List.mem_cons.mp hx with rfl | hx
      · omega
      · have := hpost x hx
        omega
    simp [hnot]
  rw [Bundle.taken, h, List.countP_append, hafter, Nat.add_zero]
  exact List.countP_congr fun x hx => by simp [hpre x hx (l, k) List.mem_cons_self]

theorem Bundle.InAlloc.mem_res (h : b.InAlloc v l k) : (l, k) ∈ b.res := by
  obtain ⟨-, hl, hl', hk⟩ := h
  exact Bundle.mem_res.mpr ⟨⟨hl, hl'⟩, hk⟩

/-- A data RE takes one of the `N_data` values of its layer (R751, R752). -/
theorem Bundle.Legal.taken_lt (hb : b.Legal) (h : (l, k) ∈ b.res) (hdata : b.isDataRe l k = true) :
    b.taken l k < b.nData := by
  obtain ⟨pre, post, hres⟩ := List.append_of_mem h
  rw [Bundle.taken_eq_countP hres, ← hb.countP_res, hres, List.countP_append, List.countP_cons]
  simp [hdata]

/-! #### The values written -/

theorem Bundle.cells_append (b : Bundle) (m : NegMin) (t : Streams) (pre post : List (Nat × Nat)) (next : Nat) :
    b.cells m t (pre ++ post) next =
      b.cells m t pre next ++ b.cells m t post (next + pre.countP fun x => b.isDataRe x.1 x.2) := by
  induction pre generalizing next with
  | nil => rfl
  | cons x rest ih =>
    simp only [List.cons_append, Bundle.cells, ih, List.append_assoc, List.countP_cons]
    congr 3
    split_ifs <;> omega

/-- The value of a layer at an RE of the allocation is among those MAP_PUSCH writes. -/
theorem Bundle.cell_mem (m : NegMin) (t : Streams) (h : b.InAlloc v l k) :
    (v, l, k, b.value m t l k v (b.taken l k)) ∈ b.cells m t b.res 0 := by
  obtain ⟨pre, post, hres⟩ := List.append_of_mem h.mem_res
  obtain ⟨hlayer, -⟩ := h
  rw [Bundle.taken_eq_countP hres, hres, Bundle.cells_append, Nat.zero_add]
  exact List.mem_append_right _ (List.mem_append_left _ (List.mem_map_of_mem (List.mem_range.mpr hlayer)))

/-- The layer, symbol and RE of a value written. -/
def cellPlace (w : Nat × Nat × Nat × C16) : Nat × Nat × Nat := (w.1, w.2.1, w.2.2.1)

theorem Bundle.map_cellPlace_cells (b : Bundle) (m : NegMin) (t : Streams) (l : List (Nat × Nat)) (next : Nat) :
    (b.cells m t l next).map cellPlace = l.flatMap fun x => (List.range b.layers).map fun v => (v, x.1, x.2) := by
  induction l generalizing next with
  | nil => rfl
  | cons x rest ih =>
    rw [Bundle.cells, List.map_append, ih, List.map_map, List.flatMap_cons]
    rfl

/-- No RE of a layer is written twice. -/
theorem Bundle.cells_pairwise (b : Bundle) (m : NegMin) (t : Streams) :
    (b.cells m t b.res 0).Pairwise fun x y => cellPlace x ≠ cellPlace y := by
  rw [← List.pairwise_map (f := cellPlace), Bundle.map_cellPlace_cells]
  refine List.nodup_flatMap.mpr ⟨fun x _ => ?_, b.res_nodup.imp fun hne p hp hq => ?_⟩
  · exact List.nodup_range.map fun v v' h => congrArg Prod.fst h
  · obtain ⟨v, -, rfl⟩ := List.mem_map.mp hp
    obtain ⟨v', -, h⟩ := List.mem_map.mp hq
    exact hne (congrArg Prod.snd h).symm

/-! #### Their addresses (spec/20_memory.md R206, R710) -/

/-- Samples at different places of a grid share no byte. -/
theorem gridAddr_apart (base : Nat) {fft g l i g' l' i' : Nat} (hl : l < 14) (hl' : l' < 14) (hi : i < fft)
    (hi' : i' < fft) (hne : (g, l, i) ≠ (g', l', i')) :
    gridAddr base fft g l i + 4 ≤ gridAddr base fft g' l' i' ∨
      gridAddr base fft g' l' i' + 4 ≤ gridAddr base fft g l i := by
  have hplace : (g * 14 + l) * fft + i ≠ (g' * 14 + l') * fft + i' := fun h => by
    have hcol : i = i' := by
      have := congrArg (· % fft) h
      simpa only [Nat.mul_add_mod_self_right, Nat.mod_eq_of_lt hi, Nat.mod_eq_of_lt hi'] using this
    subst hcol
    have hrow := Nat.eq_of_mul_eq_mul_right (by omega) (Nat.add_right_cancel h)
    obtain ⟨rfl, rfl⟩ : g = g' ∧ l = l' := by omega
    exact hne rfl
  unfold gridAddr
  omega

theorem Bundle.idx_lt (hfit : b.nSc ≤ b.fft) (hk : k < b.nSc) : b.idx k < b.fft := Nat.mod_lt _ (by omega)

/-- The allocation wraps around the buffer at most once, so its REs have different buffer indices (R711). -/
theorem Bundle.idx_inj (hfit : b.nSc ≤ b.fft) {k' : Nat} (hk : k < b.nSc) (hk' : k' < b.nSc)
    (h : b.idx k = b.idx k') : k = k' :=
  (Nat.ModEq.add_left_cancel' b.startSc h).eq_of_lt_of_lt (hk.trans_le hfit) (hk'.trans_le hfit)

theorem Bundle.mapWrites_pairwise (hsymbols : b.startSymbol + b.len ≤ 14) (hfit : b.nSc ≤ b.fft) (m : NegMin)
    (t : Streams) (grid : Nat) :
    (mapWrites b m t grid).Pairwise fun x y => x.1 + 4 ≤ y.1 ∨ y.1 + 4 ≤ x.1 := by
  refine List.pairwise_map.mpr ((b.cells_pairwise m t).imp_of_mem fun {x y} hx hy hne => ?_)
  obtain ⟨-, hx⟩ := Bundle.mem_cells hx
  obtain ⟨-, hy⟩ := Bundle.mem_cells hy
  obtain ⟨⟨-, hl⟩, hk⟩ := Bundle.mem_res.mp hx
  obtain ⟨⟨-, hl'⟩, hk'⟩ := Bundle.mem_res.mp hy
  refine gridAddr_apart grid (by omega) (by omega) (Bundle.idx_lt hfit hk) (Bundle.idx_lt hfit hk') fun h => hne ?_
  simp only [Prod.mk.injEq] at h
  obtain ⟨hv, hs, hi⟩ := h
  exact Prod.ext hv (Prod.ext hs (Bundle.idx_inj hfit hk hk' hi))

theorem Bundle.readC16_mapWrites (hsymbols : b.startSymbol + b.len ≤ 14) (hfit : b.nSc ≤ b.fft)
    (h : b.InAlloc v l k) (mem : List Host.Cell) (grid : Nat) :
    readC16 (writeC16s mem (mapWrites b m t grid)) (gridAddr grid b.fft v l (b.idx k)) =
      b.value m t l k v (b.taken l k) := by
  have hmem : (gridAddr grid b.fft v l (b.idx k), b.value m t l k v (b.taken l k)) ∈ mapWrites b m t grid :=
    List.mem_map.mpr ⟨_, Bundle.cell_mem m t h, rfl⟩
  exact readC16_writeC16s_of_mem (Bundle.mapWrites_pairwise hsymbols hfit m t grid) hmem

theorem Bundle.readByte_mapWrites_of_outside {a grid : Nat} (mem : List Host.Cell)
    (h : ∀ v l k, b.InAlloc v l k →
      a < gridAddr grid b.fft v l (b.idx k) ∨ gridAddr grid b.fft v l (b.idx k) + 4 ≤ a) :
    readByte (writeC16s mem (mapWrites b m t grid)) a = readByte mem a := by
  refine readByte_writeC16s_of_outside fun w hw => ?_
  obtain ⟨x, hx, rfl⟩ := List.mem_map.mp hw
  obtain ⟨hlayer, hre⟩ := Bundle.mem_cells hx
  obtain ⟨⟨hl, hl'⟩, hk⟩ := Bundle.mem_res.mp hre
  exact h _ _ _ ⟨hlayer, hl, hl', hk⟩

/-! #### Which stream values are read (R730, R733, R741) -/

theorem ordinal_lt {symbols : List Nat} (h : l ∈ symbols) : ordinal l symbols < symbols.length :=
  List.countP_lt_length_iff.mpr ⟨l, h, by simp⟩

/-- Entry `r` of row `q` of an array of `n` rows. -/
theorem row_entry_lt {q n j r : Nat} (hq : q < n) (hr : r < j) : q * j + r < n * j := by
  have hrow : (q + 1) * j ≤ n * j := Nat.mul_le_mul_right j hq
  rw [Nat.succ_mul] at hrow
  omega

theorem Bundle.reSeq_lt (hk : k < b.nSc) : reSeq b.dtype k < b.j := by
  unfold Bundle.nSc at hk
  unfold reSeq Bundle.j
  split_ifs <;> omega

theorem Bundle.Legal.ptrsEntry_lt (hb : b.Legal) (hl : l ∈ b.pt) (hk : k < b.nSc) (hre : b.isPtrsRe k = true) :
    ordinal l b.pt * b.nPt + (k / 12 - b.kRefRb) / b.ptrsK < b.pt.length * b.nPt := by
  obtain ⟨hK, -⟩ := hb.ptrs (List.ne_nil_of_mem hl)
  obtain ⟨hfrom, -, -⟩ := of_decide_eq_true hre
  refine row_entry_lt (ordinal_lt hl) ?_
  have hlast : k / 12 - b.kRefRb + b.ptrsK ≤ b.rbSize - b.kRefRb + b.ptrsK - 1 := by
    unfold Bundle.nSc at hk
    omega
  calc (k / 12 - b.kRefRb) / b.ptrsK
      < (k / 12 - b.kRefRb + b.ptrsK) / b.ptrsK := by rw [Nat.add_div_right _ hK]; exact Nat.lt_succ_self _
    _ ≤ b.nPt := Nat.div_le_div_right hlast

theorem Bundle.isPtrsRe_of_not_data (hdata : ¬b.isDataRe l k = true) (hdm : l ∉ b.dm) :
    l ∈ b.pt ∧ b.isPtrsRe k = true := by
  by_cases hl : l ∈ b.pt
  · rw [Bundle.isDataRe_ptrs hdm hl] at hdata
    exact ⟨hl, by simpa using hdata⟩
  · exact absurd (Bundle.isDataRe_other hdm hl k) hdata

/-- The value at an RE is made of the entries that its streams have (R713). -/
theorem Bundle.Legal.value_congr (hb : b.Legal) {t' : Streams} (h : b.InAlloc v l k)
    (hdata : ∀ i < b.nData, t'.data v i = t.data v i)
    (hdmrs : ∀ i < b.dm.length * b.j, t'.dmrs i = t.dmrs i)
    (hptrs : ∀ i < b.pt.length * b.nPt, t'.ptrs i = t.ptrs i) :
    b.value m t' l k v (b.taken l k) = b.value m t l k v (b.taken l k) := by
  have hre := h.mem_res
  obtain ⟨-, -, -, hk⟩ := h
  simp only [Bundle.value]
  split_ifs with hd hdm hgroup hlayer
  · exact hdata _ (hb.taken_lt hre hd)
  · rw [hdmrs _ (row_entry_lt (ordinal_lt hdm) (Bundle.reSeq_lt hk))]
  · rfl
  · obtain ⟨hl, hp⟩ := Bundle.isPtrsRe_of_not_data hd hdm
    exact hptrs _ (hb.ptrsEntry_lt hl hk hp)
  · rfl

end

/-! #### The command (R720) -/

/-- An allocation inside the carrier fits the buffer (spec/10_state.md R108, R701). -/
theorem bundleOf_fits {c : CfgRegs} {p : Pdu} (hc : c.legal = true) (hp : p.legal c = true) :
    (bundleOf c p).nSc ≤ (bundleOf c p).fft := by
  obtain ⟨-, -, -, -, hfft, -⟩ := c.legal_iff.mp hc
  obtain ⟨halloc, -⟩ := (p.legal_iff c).mp hp
  obtain ⟨-, ⟨-, hbwp, -, hrb⟩, -⟩ := (p.allocLegal_iff c).mp halloc
  change 12 * p.rbSize ≤ c.fftSize
  omega

/-- DMEM after a MAP_PUSCH that passes its checks. -/
def mapMemory (s : State) (daddr : Nat) : List Host.Cell :=
  writeC16s s.mem (mapWrites (mapBundleAt s daddr) s.build.negMin (streamsOf s (mapDescAt s daddr))
    (mapDescAt s daddr).gridAddr)

theorem checkRegions_bind_eq {β : Type} {s : State} {n al : Nat} {l : List Nat} {r : Except Stop β}
    {f : Unit → Except Stop β} (hr : ∀ a ∈ l, RegionOk s a n al) (h : f () = r) : (checkRegions s n al l >>= f) = r := by
  rw [checkRegions_ok_iff.mpr hr]
  exact h

section
variable {s : State} {daddr : Nat}

theorem MapReady.mapPuschBody_ok (h : MapReady s daddr) : mapPuschBody daddr s =
    .ok (((({ s with mem := mapMemory s daddr } : State).setRes0 (BitVec.ofNat 32 (mapBundleAt s daddr).nData)).setRes1
      (BitVec.ofNat 32 ((mapBundleAt s daddr).nSc * (mapBundleAt s daddr).len))).ret statusOk) :=
  require_bind_eq h.cfgValid <| readDesc_bind_eq h.desc <| checkRegion_bind_eq h.pduRegion <| require_bind_eq h.pdu <|
    checkRegions_bind_eq h.data <| checkRegion_bind_eq h.dmrs <| checkRegions_bind_eq h.ptrs <|
    checkRegion_bind_eq h.grid <| require_bind_eq h.clear <| require_bind_eq h.length rfl

theorem MapReady.exec_mapPusch (h : MapReady s daddr) : exec (.mapPusch daddr) s = .next
    { s with
      mem := mapMemory s daddr
      ports := s.ports.modify s.cur fun q =>
        { q with
          res0 := BitVec.ofNat 32 (mapBundleAt s daddr).nData
          res1 := BitVec.ofNat 32 ((mapBundleAt s daddr).nSc * (mapBundleAt s daddr).len)
          status := 0
          busy := false } } := by
  rw [exec_of_body_ok (i := .mapPusch daddr) h.mapPuschBody_ok]
  simp only [State.ret, State.setRes0, State.setRes1, State.modPort, List.modify_modify_eq]
  rfl

theorem MapReady.legal (h : MapReady s daddr) : (mapBundleAt s daddr).Legal := bundleOf_legal h.pdu

theorem MapReady.readC16_mapMemory (h : MapReady s daddr) {v l k : Nat} (hre : (mapBundleAt s daddr).InAlloc v l k) :
    readC16 (mapMemory s daddr) (gridAddr (mapDescAt s daddr).gridAddr s.cfg.fftSize v l ((mapBundleAt s daddr).idx k)) =
      (mapBundleAt s daddr).value s.build.negMin (streamsOf s (mapDescAt s daddr)) l k v
        ((mapBundleAt s daddr).taken l k) :=
  Bundle.readC16_mapWrites h.legal.symbols (bundleOf_fits h.cfgLegal h.pdu) hre _ _

/-- Settles O53: every place of the grid is written once, with the value of its RE. -/
theorem mapPuschWritesTheAllocation : Obligations.MapPuschWritesTheAllocation := by
  intro s daddr h d p b adr
  have hadr : ∀ v l k, adr v l k = gridAddr d.gridAddr s.cfg.fftSize v l (b.idx k) := fun v l k =>
    congrArg (gridAddr d.gridAddr s.cfg.fftSize v l) (Nat.mod_add_mod _ _ _).symm
  refine ⟨mapMemory s daddr, h.exec_mapPusch, fun v l k hre => ?_, fun a hout => ?_⟩
  · rw [hadr]
    exact h.readC16_mapMemory hre
  · exact Bundle.readByte_mapWrites_of_outside s.mem fun v l k hre => hadr v l k ▸ hout v l k hre

end

/-! #### The DC point (R713) -/

/-- Where the allocation starts is the only parameter of the bundle that these fields decide. -/
theorem bundleOf_moved {c c' : CfgRegs} {p p' : Pdu} (hc : c' = { c with firstCarrierOffset := c'.firstCarrierOffset })
    (hp : p' = { p with bwpStart := p'.bwpStart, rbStart := p'.rbStart }) :
    bundleOf c' p' = { bundleOf c p with startSc := (bundleOf c' p').startSc } := by
  generalize c'.firstCarrierOffset = offset at hc
  generalize p'.bwpStart = bwp, p'.rbStart = rb at hp
  subst hc hp
  rfl

theorem Bundle.value_startSc (b : Bundle) (start : Nat) : { b with startSc := start }.value = b.value := rfl

theorem Bundle.taken_startSc (b : Bundle) (start : Nat) : { b with startSc := start }.taken = b.taken := rfl

theorem Bundle.inAlloc_startSc (b : Bundle) (start : Nat) : { b with startSc := start }.InAlloc = b.InAlloc := rfl

/-- Settles O55: the value at an RE does not depend on where the allocation starts. -/
theorem dcStraddlingIsTransparent : Obligations.DcStraddlingIsTransparent := by
  intro s s' t t' daddr daddr' h h' hbuild hcfg hpdu hdata hdmrs hptrs ht ht' v l k hre
  have hmoved : mapBundleAt s' daddr' = { mapBundleAt s daddr with startSc := (mapBundleAt s' daddr').startSc } :=
    bundleOf_moved hcfg hpdu
  have hre' : (mapBundleAt s' daddr').InAlloc v l k := by
    rw [hmoved, Bundle.inAlloc_startSc]
    exact hre
  rw [h.exec_mapPusch] at ht
  rw [h'.exec_mapPusch] at ht'
  cases ht
  cases ht'
  refine (h'.readC16_mapMemory hre').trans (Eq.trans ?_ (h.readC16_mapMemory hre).symm)
  rw [hmoved, Bundle.value_startSc, Bundle.taken_startSc, hbuild]
  exact h.legal.value_congr hre (fun i hi => hdata v i hre.1 (h.length ▸ hi)) hdmrs hptrs

end Sys2Proof.Machine
end
section
/-! ### What LAYER_MAP, TP_DFT and PRECODE write (spec/44_precoding_transform.md R810, R820, R821, R831 to R833) -/

namespace Sys2Proof.Machine

-- One proof after another, so that the threads of the whole text stay within the memory limit.
set_option Elab.async false

/-! #### Samples written by two loops, one inside the other -/

/-- Two samples share no byte. -/
abbrev SamplesApart (a a' : Nat) : Prop := a + 4 ≤ a' ∨ a' + 4 ≤ a

section
variable {α β : Type} {outer : List α} {inner : List β} {w : α → β → Nat × C16} {m : List Host.Cell}

theorem nestedWrites_pairwise (houter : outer.Nodup) (hinner : inner.Nodup)
    (hapart : ∀ x ∈ outer, ∀ y ∈ inner, ∀ x' ∈ outer, ∀ y' ∈ inner,
      (x, y) ≠ (x', y') → SamplesApart (w x y).1 (w x' y').1) :
    (outer.flatMap fun x => inner.map (w x)).Pairwise fun p q => SamplesApart p.1 q.1 := by
  refine List.pairwise_flatMap.mpr ⟨fun x hx => ?_, houter.imp_of_mem fun {x x'} hx hx' hne p hp q hq => ?_⟩
  · refine List.pairwise_map.mpr (hinner.imp_of_mem fun {y y'} hy hy' hne => ?_)
    exact hapart x hx y hy x hx y' hy' fun h => hne (congrArg Prod.snd h)
  · obtain ⟨y, hy, rfl⟩ := List.mem_map.mp hp
    obtain ⟨y', hy', rfl⟩ := List.mem_map.mp hq
    exact hapart x hx y hy x' hx' y' hy' fun h => hne (congrArg Prod.fst h)

/-- Each sample reads back, whatever the loops write after it. -/
theorem readC16_nestedWrites (houter : outer.Nodup) (hinner : inner.Nodup)
    (hapart : ∀ x ∈ outer, ∀ y ∈ inner, ∀ x' ∈ outer, ∀ y' ∈ inner,
      (x, y) ≠ (x', y') → SamplesApart (w x y).1 (w x' y').1)
    {x : α} {y : β} (hx : x ∈ outer) (hy : y ∈ inner) :
    readC16 (writeC16s m (outer.flatMap fun x => inner.map (w x))) (w x y).1 = (w x y).2 :=
  readC16_writeC16s_of_mem (nestedWrites_pairwise houter hinner hapart)
    (List.mem_flatMap.mpr ⟨x, hx, List.mem_map_of_mem hy⟩)

theorem readByte_nestedWrites_of_outside {a : Nat}
    (hout : ∀ x ∈ outer, ∀ y ∈ inner, a < (w x y).1 ∨ (w x y).1 + 4 ≤ a) :
    readByte (writeC16s m (outer.flatMap fun x => inner.map (w x))) a = readByte m a := by
  refine readByte_writeC16s_of_outside fun p hp => ?_
  obtain ⟨x, hx, hp⟩ := List.mem_flatMap.mp hp
  obtain ⟨y, hy, rfl⟩ := List.mem_map.mp hp
  exact hout x hx y hy

end

/-! #### The end of a kernel -/

/-- A kernel that answers RES0 changes DMEM and the issuing port only. -/
theorem answerRes0_eq (s : State) (m : List Host.Cell) (res0 : Word) :
    (({ s with mem := m } : State).setRes0 res0).ret statusOk =
      { s with
        mem := m
        ports := s.ports.modify s.cur fun p => { p with res0 := res0, status := 0, busy := false } } := by
  simp only [State.ret, State.setRes0, State.modPort, List.modify_modify_eq]
  rfl

/-- A kernel that answers RES0 and RES1 changes DMEM and the issuing port only. -/
theorem answerRes01_eq (s : State) (m : List Host.Cell) (res0 res1 : Word) :
    ((({ s with mem := m } : State).setRes0 res0).setRes1 res1).ret statusOk =
      { s with
        mem := m
        ports := s.ports.modify s.cur fun p =>
          { p with res0 := res0, res1 := res1, status := 0, busy := false } } := by
  simp only [State.ret, State.setRes0, State.setRes1, State.modPort, List.modify_modify_eq]
  rfl

/-! #### LAYER_MAP (R810) -/

/-- Regions that are not empty and do not overlap lie one after the other (spec/20_memory.md R216). -/
theorem apart_of_not_overlaps {x y : Nat × Nat} (h : overlaps x y = false) (hx : 0 < x.2) (hy : 0 < y.2) :
    x.1 + x.2 ≤ y.1 ∨ y.1 + y.2 ≤ x.1 := by
  simp only [overlaps, Bool.and_eq_false_iff, decide_eq_false_iff_not] at h
  omega

section
variable {s : State} {daddr : Nat} {d : LayerMapDesc} {m : List Host.Cell}

/-- Without symbols the addresses pass as R810 says (log 27), with symbols as regions of DMEM. -/
theorem checkLayerRegions_bind_eq {β : Type} {r : Except Stop β} {f : Unit → Except Stop β}
    (h4 : d.nLayers ≤ d.outAddr.length)
    (hempty : d.nIn = 0 → (d.inAddr < 2 ^ 26 ∧ d.inAddr % 4 = 0) ∧
      ∀ v < d.nLayers, d.outAddr.getD v 0 < 2 ^ 26 ∧ d.outAddr.getD v 0 % 4 = 0)
    (hfull : d.nIn ≠ 0 → RegionOk s d.inAddr (4 * d.nIn) 4 ∧
      ∀ v < d.nLayers, RegionOk s (d.outAddr.getD v 0) (4 * (d.nIn / d.nLayers)) 4)
    (h : f () = r) : (checkLayerRegions s d >>= f) = r := by
  have hregions : checkLayerRegions s d = .ok () := by
    refine checkLayerRegions_ok_iff.mpr ⟨fun hn => ?_, fun hn => ?_⟩
    · obtain ⟨hin, hout⟩ := hempty hn
      exact List.forall_mem_cons.mpr ⟨hin, (forall_mem_take_iff h4 0).mpr hout⟩
    · obtain ⟨hin, hout⟩ := hfull hn
      exact ⟨hin, (forall_mem_take_iff h4 0).mpr hout⟩
  rw [hregions]
  exact h

/-- The layers pass the overlap checks where each is clear of the input, of the descriptor and of the others. -/
theorem layerRegions_clear (h4 : d.nLayers ≤ d.outAddr.length)
    (hclear : ∀ v < d.nLayers,
      overlaps (d.outAddr.getD v 0, 4 * (d.nIn / d.nLayers)) (d.inAddr, 4 * d.nIn) = false ∧
      overlaps (d.outAddr.getD v 0, 4 * (d.nIn / d.nLayers)) (4 * daddr, 28) = false ∧
      ∀ u < d.nLayers, u ≠ v → overlaps (d.outAddr.getD v 0, 4 * (d.nIn / d.nLayers))
        (d.outAddr.getD u 0, 4 * (d.nIn / d.nLayers)) = false) :
    disjointAll (layerRegions d) = true ∧
      ((layerRegions d).all fun x => clearOf x [(d.inAddr, 4 * d.nIn), descRegion daddr 28]) = true := by
  rw [layerRegions_eq h4, disjointAll_iff, List.pairwise_map, List.all_eq_true]
  refine ⟨List.nodup_range.imp_of_mem fun {v u} hv hu hne => ?_, fun x hx => ?_⟩
  · obtain ⟨-, -, hothers⟩ := hclear v (List.mem_range.mp hv)
    exact hothers u (List.mem_range.mp hu) hne.symm
  · obtain ⟨v, hv, rfl⟩ := List.mem_map.mp hx
    obtain ⟨hin, hdesc, -⟩ := hclear v (List.mem_range.mp hv)
    simpa [clearOf_eq_true_iff] using ⟨hin, hdesc⟩

/-- Symbols of one layer follow each other, and no two layers overlap. -/
theorem readC16_layerWrites {v i : Nat}
    (hdisjoint : ∀ v < d.nLayers, ∀ u < d.nLayers, u ≠ v →
      overlaps (d.outAddr.getD v 0, 4 * (d.nIn / d.nLayers)) (d.outAddr.getD u 0, 4 * (d.nIn / d.nLayers)) = false)
    (hv : v < d.nLayers) (hi : i < d.nIn / d.nLayers) :
    readC16 (writeC16s m (layerWrites m d)) (d.outAddr.getD v 0 + 4 * i) =
      readC16 m (d.inAddr + 4 * (d.nLayers * i + v)) := by
  refine readC16_nestedWrites
    (w := fun i v => (d.outAddr.getD v 0 + 4 * i, readC16 m (d.inAddr + 4 * (d.nLayers * i + v))))
    List.nodup_range List.nodup_range (fun i hi v hv j hj u hu hne => ?_)
    (List.mem_range.mpr hi) (List.mem_range.mpr hv)
  have hi := List.mem_range.mp hi
  have hj := List.mem_range.mp hj
  by_cases hlayer : u = v
  · subst hlayer
    have hij : i ≠ j := fun h => hne (congrArg (·, u) h)
    dsimp only
    omega
  · have hapart := apart_of_not_overlaps (hdisjoint v (List.mem_range.mp hv) u (List.mem_range.mp hu) hlayer)
      (by dsimp only; omega) (by dsimp only; omega)
    dsimp only at hapart ⊢
    omega

theorem readByte_layerWrites_of_outside {a : Nat}
    (hout : ∀ v < d.nLayers, a < d.outAddr.getD v 0 ∨ d.outAddr.getD v 0 + 4 * (d.nIn / d.nLayers) ≤ a) :
    readByte (writeC16s m (layerWrites m d)) a = readByte m a := by
  refine readByte_nestedWrites_of_outside fun i hi v hv => ?_
  have hi := List.mem_range.mp hi
  have hlayer := hout v (List.mem_range.mp hv)
  dsimp only
  omega

end

/-- Settles O56: the layers do not overlap, so each symbol stays where it was put. -/
theorem layerMapDealsOutTheSymbols : Obligations.LayerMapDealsOutTheSymbols := by
  intro s daddr hr d out n hres h1 h4 hmod hempty hfull hclear
  have h4' : d.nLayers ≤ d.outAddr.length := h4
  have hbody : layerMapBody daddr s = .ok ((({ s with mem := writeC16s s.mem (layerWrites s.mem d) } : State).setRes0
      (BitVec.ofNat 32 n)).ret statusOk) :=
    readDesc_bind_eq hr <| require_bind_eq ⟨hres, h1, h4⟩ <| require_bind_eq hmod <|
      checkLayerRegions_bind_eq h4' hempty hfull <| require_bind_eq (layerRegions_clear h4' hclear) rfl
  refine ⟨writeC16s s.mem (layerWrites s.mem d), ?_, fun v i hv hi => ?_, fun a hout => ?_⟩
  · rw [exec_of_body_ok (i := .layerMap daddr) hbody, answerRes0_eq]
  · refine readC16_layerWrites (fun v hv => ?_) hv hi
    obtain ⟨-, -, hothers⟩ := hclear v hv
    exact hothers
  · exact readByte_layerWrites_of_outside hout

/-! #### TP_DFT (R820, R821) -/

/-- A place in an array of rows gives its row and its column. -/
theorem row_entry_inj {q q' j r r' : Nat} (hr : r < j) (hr' : r' < j) (h : q * j + r = q' * j + r') :
    q = q' ∧ r = r' := by
  have hcol : r = r' := by
    have := congrArg (· % j) h
    simpa only [Nat.mul_add_mod_self_right, Nat.mod_eq_of_lt hr, Nat.mod_eq_of_lt hr'] using this
  subst hcol
  exact ⟨Nat.eq_of_mul_eq_mul_right (by omega) (Nat.add_right_cancel h), rfl⟩

section
variable {mem : List Host.Cell} {inAddr outAddr M blocks : Nat}

/-- The values come from DMEM before the command, so the output may be the input (R820). -/
theorem readC16_dftWrites {b k : Nat} (hb : b < blocks) (hk : k < M) :
    readC16 (writeC16s mem (dftWrites mem inAddr outAddr M blocks)) (outAddr + 4 * (b * M + k)) =
      Config.dftNum M (readC16s mem (inAddr + 4 * (b * M)) M) k := by
  refine readC16_nestedWrites
    (w := fun b k => (outAddr + 4 * (b * M + k), Config.dftNum M (readC16s mem (inAddr + 4 * (b * M)) M) k))
    List.nodup_range List.nodup_range (fun b _ k hk b' _ k' hk' hne => ?_)
    (List.mem_range.mpr hb) (List.mem_range.mpr hk)
  have hplace : b * M + k ≠ b' * M + k' := fun h => hne <| by
    obtain ⟨rfl, rfl⟩ := row_entry_inj (List.mem_range.mp hk) (List.mem_range.mp hk') h
    rfl
  dsimp only
  omega

theorem sameOutside_dftWrites {n : Nat} (hn : blocks * M ≤ n) :
    SameOutside mem (writeC16s mem (dftWrites mem inAddr outAddr M blocks)) outAddr (4 * n) := by
  intro a hout
  refine readByte_nestedWrites_of_outside fun b hb k hk => ?_
  have hplace := row_entry_lt (List.mem_range.mp hb) (List.mem_range.mp hk)
  dsimp only
  omega

end

/-- Settles O57: every input is read before any output is written. -/
theorem tpDftTransformsEachBlock : Obligations.TpDftTransformsEachBlock := by
  intro s daddr hr t p M hpr hp htp hsize hn hin hout hsame hdesc hpdu
  have hclear : clearOf (t.outAddr, 4 * t.n) [descRegion daddr 16, (t.pduAddr, 64)] = true := by
    simpa [clearOf_eq_true_iff] using ⟨hdesc, hpdu⟩
  have hbody : tpDftBody daddr s = .ok (((({ s with
      mem := writeC16s s.mem (dftWrites s.mem t.inAddr t.outAddr M (t.n / M)) } : State).setRes0
        (BitVec.ofNat 32 (t.n / M))).setRes1 (BitVec.ofNat 32 M)).ret statusOk) :=
    readDesc_bind_eq hr <| checkRegion_bind_eq hpr <| require_bind_eq ⟨hp, htp⟩ <| require_bind_eq hsize <|
      require_bind_eq hn <| checkRegion_bind_eq hin <| checkRegion_bind_eq hout <| require_bind_eq ⟨hsame, hclear⟩ rfl
  refine ⟨writeC16s s.mem (dftWrites s.mem t.inAddr t.outAddr M (t.n / M)), ?_, fun b k => readC16_dftWrites,
    sameOutside_dftWrites (Nat.div_mul_le_self ..)⟩
  rw [exec_of_body_ok (i := .tpDft daddr) hbody, answerRes01_eq]

/-! #### PRECODE (R831 to R833) -/

/-- A legal PDU has a layer (spec/43_re_mapper.md R701). -/
theorem Pdu.nLayers_pos {c : CfgRegs} {p : Pdu} (h : p.legal c = true) : 0 < p.nLayers := by
  obtain ⟨-, hdmrs, -⟩ := (p.legal_iff c).mp h
  obtain ⟨⟨hlayers, -⟩, -⟩ := (Pdu.dmrsLegal_iff (Pdu.symbols_le h)).mp hdmrs
  exact hlayers

section
variable {m : List Host.Cell} {b : Bundle} {w : Option WMatrix} {base l k a : Nat}

/-- Without a matrix antenna `a` takes layer `a`, or 0 where there is no such layer (R831). -/
theorem antennaValue_none : antennaValue none a (layerValues m b base l k) =
    if a < b.layers then readC16 m (gridAddr base b.fft a l (b.idx k)) else ⟨0, 0⟩ := by
  split_ifs with h
  · simp [antennaValue, layerValues, h]
  · simp [antennaValue, layerValues, h]

/-- With a matrix antenna `a` takes PRECODE_NUM of its row (R832). -/
theorem antennaValue_some (x : WMatrix) : antennaValue (some x) a (layerValues m b base l k) =
    Config.precodeNum ⟨x.norm, (List.range b.layers).map (x.entry a)⟩ (layerValues m b base l k) := by
  simp [antennaValue, WMatrix.row, layerValues]

/-- What PRECODE writes for antenna `a` at RE `x`. -/
def precodedRe (m : List Host.Cell) (b : Bundle) (w : Option WMatrix) (base grid : Nat) (x : Nat × Nat) (a : Nat) :
    Nat × C16 :=
  (gridAddr grid b.fft a x.1 (b.idx x.2), antennaValue w a (layerValues m b base x.1 x.2))

theorem precodeWrites_eq (nAnt grid : Nat) : precodeWrites m b w nAnt base grid =
    b.res.flatMap fun x => (List.range nAnt).map (precodedRe m b w base grid x) := rfl

/-- The REs of an allocation that fits the buffer have different places in the antenna grid (R711, R833). -/
theorem Bundle.precodedRe_apart {grid a' : Nat} {x x' : Nat × Nat} (hsymbols : b.startSymbol + b.len ≤ 14)
    (hfit : b.nSc ≤ b.fft) (hx : x ∈ b.res) (hx' : x' ∈ b.res) (hne : (x, a) ≠ (x', a')) :
    SamplesApart (precodedRe m b w base grid x a).1 (precodedRe m b w base grid x' a').1 := by
  obtain ⟨⟨-, hl⟩, hk⟩ := Bundle.mem_res.mp hx
  obtain ⟨⟨-, hl'⟩, hk'⟩ := Bundle.mem_res.mp hx'
  refine gridAddr_apart grid (by omega) (by omega) (Bundle.idx_lt hfit hk) (Bundle.idx_lt hfit hk') fun h => hne ?_
  simp only [Prod.mk.injEq] at h
  obtain ⟨hant, hs, hi⟩ := h
  exact Prod.ext (Prod.ext hs (Bundle.idx_inj hfit hk hk' hi)) hant

theorem Bundle.readC16_precodeWrites {nAnt grid : Nat} (hsymbols : b.startSymbol + b.len ≤ 14) (hfit : b.nSc ≤ b.fft)
    (hre : (l, k) ∈ b.res) (ha : a < nAnt) :
    readC16 (writeC16s m (precodeWrites m b w nAnt base grid)) (precodedRe m b w base grid (l, k) a).1 =
      (precodedRe m b w base grid (l, k) a).2 := by
  rw [precodeWrites_eq]
  exact readC16_nestedWrites b.res_nodup List.nodup_range
    (fun x hx a _ y hy a' _ => Bundle.precodedRe_apart hsymbols hfit hx hy) hre (List.mem_range.mpr ha)

theorem Bundle.readByte_precodeWrites_of_outside {nAnt grid x : Nat}
    (hout : ∀ l k, (l, k) ∈ b.res → ∀ a < nAnt,
      x < gridAddr grid b.fft a l (b.idx k) ∨ gridAddr grid b.fft a l (b.idx k) + 4 ≤ x) :
    readByte (writeC16s m (precodeWrites m b w nAnt base grid)) x = readByte m x :=
  readByte_nestedWrites_of_outside fun re hre a ha => hout re.1 re.2 hre a (List.mem_range.mp ha)

end

/-- DMEM after a PRECODE that passes its checks. -/
def precodeMemory (s : State) (c : PrecodeDesc) : List Host.Cell :=
  writeC16s s.mem (precodeWrites s.mem (bundleOf s.cfg (readPdu s c.pduAddr)) (pduMatrix (readPdu s c.pduAddr))
    (readPdu s c.pduAddr).nAnt c.layerGridAddr c.antGridAddr)

/-- Settles O58: every allocated RE of every antenna is written once, with the value of its matrix row. -/
theorem precodeFillsTheAntennaGrid : Obligations.PrecodeFillsTheAntennaGrid := by
  intro s daddr hv hc hr c p b layer adr hpr hp hant hlayers hmat hlayerGrid hantGrid hclear
  have hbody : precodeBody daddr s = .ok (((({ s with mem := precodeMemory s c } : State).setRes0
      (BitVec.ofNat 32 p.nAnt)).setRes1 (BitVec.ofNat 32 (12 * p.rbSize * p.nrOfSymbols))).ret statusOk) :=
    require_bind_eq hv <| readDesc_bind_eq hr <| checkRegion_bind_eq hpr <| require_bind_eq hp <|
      require_bind_eq ⟨hant, hlayers⟩ <| require_bind_eq hmat <| checkRegion_bind_eq hlayerGrid <|
      checkRegion_bind_eq hantGrid <| require_bind_eq hclear rfl
  refine ⟨precodeMemory s c, ?_, fun a l k ha hre => ?_, fun x hout => ?_⟩
  · rw [exec_of_body_ok (i := .precode daddr) hbody, answerRes01_eq]
  · have hread : readC16 (precodeMemory s c) (adr a l k) =
        antennaValue (pduMatrix p) a (layerValues s.mem b c.layerGridAddr l k) :=
      Bundle.readC16_precodeWrites (bundleOf_legal hp).symbols (bundleOf_fits hc hp) hre.mem_res ha
    refine ⟨fun h0 => ?_, fun w h0 hw => ?_⟩
    · rw [hread, pduMatrix, if_pos h0]
      exact antennaValue_none
    · rw [hread, pduMatrix, if_neg h0, hw]
      exact antennaValue_some w
  · refine Bundle.readByte_precodeWrites_of_outside fun l k hre a ha => hout a l k ha ?_
    obtain ⟨⟨hl, hl'⟩, hk⟩ := Bundle.mem_res.mp hre
    exact ⟨Pdu.nLayers_pos hp, hl, hl', hk⟩

end Sys2Proof.Machine
end
section
/-! ### What the LLR commands write (spec/45_llr.md R903, R904, R906, R910 to R912) -/

namespace Sys2Proof.Machine

-- One proof after another, so that the threads of the whole text stay within the memory limit.
set_option Elab.async false

/-! #### A field of byte strings put one after the other -/

section
variable {l l' : List Byte} {off w : Nat}

theorem fieldAt_append_left (h : off + w ≤ l.length) : fieldAt (l ++ l') off w = fieldAt l off w := by
  rw [fieldAt, List.drop_append_of_le_length (by omega), List.take_append_of_le_length (by simp; omega), fieldAt]

theorem fieldAt_append_right : fieldAt (l ++ l') (l.length + off) w = fieldAt l' off w := by
  rw [fieldAt, List.drop_length_add_append, fieldAt]

end

/-- A field of the `i`-th of a series of byte strings of one length. -/
theorem fieldAt_flatMap {α : Type} {f : α → List Byte} {n i off w : Nat} {l : List α} {a : α}
    (hlen : ∀ x ∈ l, (f x).length = n) (ha : l[i]? = some a) (hfit : off + w ≤ n) :
    fieldAt (l.flatMap f) (n * i + off) w = fieldAt (f a) off w := by
  induction l generalizing i with
  | nil => cases ha
  | cons x rest ih =>
    obtain ⟨hx, hrest⟩ := List.forall_mem_cons.mp hlen
    rw [List.flatMap_cons]
    cases i with
    | zero =>
      obtain rfl : x = a := Option.some.inj ha
      rw [Nat.mul_zero, Nat.zero_add]
      exact fieldAt_append_left (hx.symm ▸ hfit)
    | succ j =>
      have hplace : n * (j + 1) + off = (f x).length + (n * j + off) := by rw [hx]; ring
      rw [hplace, fieldAt_append_right]
      exact ih hrest ha

/-- A sample is its two fields `re` and `im` (spec/20_memory.md R205). -/
theorem c16Bytes_eq_layout (x : C16) : c16Bytes x = layout [(2, x.re.toNat), (2, x.im.toNat)] := rfl

theorem fieldAt_c16Bytes_re (x : C16) : fieldAt (c16Bytes x) 0 2 = x.re.toNat := by
  rw [c16Bytes_eq_layout, fieldAt_layout (v := x.re.toNat) rfl]
  exact Nat.mod_eq_of_lt x.re.isLt

theorem fieldAt_c16Bytes_im (x : C16) : fieldAt (c16Bytes x) 2 2 = x.im.toNat := by
  rw [c16Bytes_eq_layout, fieldAt_layout (v := x.im.toNat) rfl]
  exact Nat.mod_eq_of_lt x.im.isLt

/-! #### The recursion of one RE (R903) -/

theorem llrChain_zero (m : AbsMin) (v : C16) (mags : List C16) (dflt : C16) : (llrChain m v mags).getD 0 dflt = v := by
  cases mags with
  | nil => rfl
  | cons mag rest => rfl

/-- Each value comes from the one before it and the magnitude of its number. -/
theorem llrChain_succ (m : AbsMin) (v : C16) {mags : List C16} {k : Nat} (hk : k < mags.length) (dflt : C16) :
    (llrChain m v mags).getD (k + 1) dflt =
      llrStep m ((llrChain m v mags).getD k dflt) (mags.getD k dflt) := by
  induction mags generalizing v k with
  | nil => cases hk
  | cons mag rest ih =>
    rw [llrChain, List.getD_cons_succ]
    cases k with
    | zero => exact llrChain_zero m _ rest dflt
    | succ j => exact ih (llrStep m v mag) (Nat.lt_of_succ_lt_succ hk)

/-! #### The output array (R903, R904) -/

section
variable (m : AbsMin) (mem : List Host.Cell) (rx : Nat) (mags : List Nat)

/-- The `v_k` of RE `r`. -/
def llrValue (r k : Nat) : C16 := (llrOfRe m mem rx mags r).getD k ⟨0, 0⟩

theorem llrValue_zero (r : Nat) : llrValue m mem rx mags r 0 = readC16 mem (rx + 4 * r) := llrChain_zero ..

theorem llrValue_succ (r : Nat) {k : Nat} (hk : k < mags.length) : llrValue m mem rx mags r (k + 1) =
    llrStep m (llrValue m mem rx mags r k) (readC16 mem (mags.getD k 0 + 4 * r)) := by
  rw [llrValue, llrOfRe, llrChain_succ m _ (by simpa using hk)]
  simp [llrValue, llrOfRe, hk]

theorem llrOfRe_length (r : Nat) : (llrOfRe m mem rx mags r).length = mags.length + 1 := by
  rw [llrOfRe, llrChain_length, List.length_map]

/-- A field of `v_k` of RE `r`, at its place in the output. -/
theorem fieldAt_llrBytes {nbRe r k off w : Nat} (hr : r < nbRe) (hk : k ≤ mags.length) (hfit : off + w ≤ 4) :
    fieldAt (llrBytes m mem rx mags nbRe) (4 * (mags.length + 1) * r + (4 * k + off)) w =
      fieldAt (c16Bytes (llrValue m mem rx mags r k)) off w := by
  have hvalue : (llrOfRe m mem rx mags r)[k]? = some (llrValue m mem rx mags r k) := by
    have hlt : k < (llrOfRe m mem rx mags r).length := by rw [llrOfRe_length]; omega
    simp [llrValue, hlt]
  have hre : ∀ i, ((llrOfRe m mem rx mags i).flatMap c16Bytes).length = 4 * (mags.length + 1) := fun i => by
    rw [length_flatMap_of_forall _ fun x _ => c16Bytes_length x, llrOfRe_length]
  rw [llrBytes, fieldAt_flatMap (fun i _ => hre i) (List.getElem?_range hr) (by omega),
    fieldAt_flatMap (fun x _ => c16Bytes_length x) hvalue hfit]

/-- Place `Q * r + 2 * k` of the i16 array holds `re` of `v_k` of RE `r`, and the next place its `im`. -/
theorem memRead_llrBytes (out : Nat) {nbRe r k : Nat} (hr : r < nbRe) (hk : k ≤ mags.length) :
    let Q := 2 * (mags.length + 1)
    let after := writeBytes mem out (llrBytes m mem rx mags nbRe)
    memRead after (out + 2 * (Q * r + 2 * k)) 2 = (llrValue m mem rx mags r k).re.toNat ∧
      memRead after (out + 2 * (Q * r + 2 * k + 1)) 2 = (llrValue m mem rx mags r k).im.toNat := by
  intro Q after
  have hrow : r * (mags.length + 1) + k < nbRe * (mags.length + 1) := row_entry_lt hr (Nat.lt_succ_of_le hk)
  have read : ∀ {off}, off + 2 ≤ 4 →
      memRead after (out + (4 * (mags.length + 1) * r + (4 * k + off))) 2 =
        fieldAt (c16Bytes (llrValue m mem rx mags r k)) off 2 := fun {off} hoff => by
    have hinside : 4 * (mags.length + 1) * r + (4 * k + off) + 2 ≤ (llrBytes m mem rx mags nbRe).length := by
      rw [llrBytes_length]
      linarith
    rw [memRead_writeBytes mem out hinside, fieldAt_llrBytes m mem rx mags hr hk hoff]
  have hre : 2 * (Q * r + 2 * k) = 4 * (mags.length + 1) * r + (4 * k + 0) := by ring
  have him : 2 * (Q * r + 2 * k + 1) = 4 * (mags.length + 1) * r + (4 * k + 2) := by ring
  rw [hre, him, read (by decide), read (by decide), fieldAt_c16Bytes_re, fieldAt_c16Bytes_im]
  exact ⟨rfl, rfl⟩

end

/-! #### The commands (R906) -/

/-- DMEM after an LLR command with `nm` magnitude arrays that passes its checks. -/
def llrMemory (nm : Nat) (s : State) (d : LlrDesc) : List Host.Cell :=
  writeBytes s.mem d.outAddr (llrBytes s.build.absMin s.mem d.rxAddr (d.magAddr.take nm) d.nbRe)

/-- The output of an LLR command is clear of its descriptor and of its inputs. -/
theorem clearOf_llrInputs {x : Nat × Nat} {nm daddr : Nat} {d : LlrDesc} (hnm : nm ≤ d.magAddr.length)
    (hdesc : overlaps x (4 * daddr, 24) = false) (hrx : overlaps x (d.rxAddr, 4 * d.nbRe) = false)
    (hmag : ∀ k < nm, overlaps x (d.magAddr.getD k 0, 4 * d.nbRe) = false) :
    clearOf x (descRegion daddr 24 :: (d.rxAddr, 4 * d.nbRe) ::
      (d.magAddr.take nm).map fun a => (a, 4 * d.nbRe)) = true :=
  clearOf_eq_true_iff.mpr <| List.forall_mem_cons.mpr ⟨hdesc, List.forall_mem_cons.mpr ⟨hrx,
    List.forall_mem_map.mpr ((forall_mem_take_iff hnm 0).mpr hmag)⟩⟩

/-- Settles O59: every RE has its own place in the output, and every input is read before any output is written. -/
theorem llrCommandsWriteTheRecursion : Obligations.LlrCommandsWriteTheRecursion := by
  intro s daddr i nm hi hr d Q hn hrx hmag hout hdesc hclearRx hclearMag
  obtain ⟨hcommand, hnm⟩ := commandBody_llr (s := s) hi
  have h3 : nm ≤ d.magAddr.length := hnm
  have htake : (d.magAddr.take nm).length = nm := List.length_take_of_le h3
  have hbody : llrBody nm daddr s = .ok ((({ s with mem := llrMemory nm s d } : State).setRes0
      (BitVec.ofNat 32 (Q * d.nbRe))).ret statusOk) :=
    readDesc_bind_eq hr <| require_bind_eq hn <| checkRegion_bind_eq hrx <|
      checkRegions_bind_eq ((forall_mem_take_iff h3 0).mpr hmag) <| checkRegion_bind_eq hout <|
      require_bind_eq (clearOf_llrInputs h3 hdesc hclearRx hclearMag) rfl
  refine ⟨llrMemory nm s d, ?_, fun r hre => ?_, ?_⟩
  · rw [exec_of_body_ok (hcommand.trans hbody), answerRes0_eq]
  · refine ⟨llrValue s.build.absMin s.mem d.rxAddr (d.magAddr.take nm) r, llrValue_zero .., fun k hk => ?_,
      fun k hk => ?_⟩
    · have hmagk : (d.magAddr.take nm).getD k 0 = d.magAddr.getD k 0 := by
        simp [List.getD_eq_getElem?_getD, List.getElem?_take_of_lt hk]
      rw [llrValue_succ _ _ _ _ _ (by rwa [htake]), hmagk]
      rfl
    · have hplaces := memRead_llrBytes s.build.absMin s.mem d.rxAddr (d.magAddr.take nm) d.outAddr hre (k := k)
        (by rwa [htake])
      rwa [htake] at hplaces
  · refine sameOutside_writeBytes s.mem d.outAddr ?_
    rw [llrBytes_length, htake]
    ring

end Sys2Proof.Machine
end
section
/-! ### How a step and a command end (spec/60_exceptions.md R1000, R1011, R1020 to R1022, R1030) -/

namespace Sys2Proof.Machine

/-! #### The halted PTB (R1022) -/

section
variable {s : State}

theorem State.not_enabled_of_halted (h : s.halted = true) (p : Nat) : s.enabled p = false := by
  simp [State.enabled, h]

theorem State.writeCmd_of_halted (h : s.halted = true) (p : Nat) (w : Word) : s.writeCmd p w = s := if_pos (.inl h)

theorem step_of_halted (h : s.halted = true) (hi : s.inputs = []) : step s = .next s := by
  unfold step
  rw [hi]
  exact if_pos h

/-- With no input listed a running PTB gives a turn to a port of its own choice (log 5). -/
theorem step_of_no_input (h : s.halted = false) (hi : s.inputs = []) :
    step s = takeTurn s.freePort (Config.racing s.draws) { s with draws := s.draws + 1 } := by
  cases s
  cases hi
  exact if_neg (ne_true_of_eq_false h)

end

/-- Settles O10: no port of a halted PTB can take a step, so a turn and a CMD write only use up their input. -/
theorem haltedPtbStandsStill : Obligations.HaltedPtbStandsStill := by
  intro s hh
  refine ⟨fun p drawn rest hi hp => ?_, fun p w rest hi hp => ?_, step_of_halted hh⟩
  · rw [step_of_take hi hp]
    exact takeTurn_of_not_enabled (State.not_enabled_of_halted (s := { s with inputs := rest }) hh p) drawn
  · rw [step_of_writeCmd hi hp, State.writeCmd_of_halted (s := { s with inputs := rest }) hh p w]

/-! #### Every step answers a next state (R1000, log 17) -/

theorem Effect.inputs {s t : State} (h : Effect s t) : t.inputs = s.inputs := by
  cases h with
  | quiet g => exact g.inputs
  | config _ _ frame => exact frame.inputs
  | init _ _ frame => exact frame.inputs
  | tables _ _ frame => exact frame.inputs
  | channels _ _ _ frame => exact frame.inputs

theorem CommandEnd.inputs {s t : State} (h : CommandEnd s t) : t.inputs = s.inputs := by
  rcases h with ⟨c, rfl⟩ | h
  · rfl
  · exact h.inputs

/-- A turn answers a next state, of the same implementation and with the same inputs still to come. -/
theorem takeTurn_next (p : Nat) (drawn : List Host.Cell) (s : State) :
    ∃ t, takeTurn p drawn s = .next t ∧ t.build = s.build ∧ t.inputs = s.inputs := by
  cases he : s.enabled p with
  | false => exact ⟨s, takeTurn_of_not_enabled he drawn, rfl, rfl⟩
  | true =>
    obtain ⟨u, hu, hend⟩ := runCommand_end (s.turnStart p drawn)
    exact ⟨_, takeTurn_of_enabled he drawn hu, hend.flagsKept.build, hend.inputs⟩

/-- A step whose input names what exists answers a next state and uses up that input. -/
theorem step_next {s : State} (hs : s.InputsOk) :
    ∃ t, step s = .next t ∧ t.build = s.build ∧ t.inputs = s.inputs.tail := by
  cases hi : s.inputs with
  | nil =>
    cases hh : s.halted with
    | true => exact ⟨s, step_of_halted hh hi, rfl, hi⟩
    | false =>
      rw [step_of_no_input hh hi, List.tail_nil, ← hi]
      exact takeTurn_next s.freePort (Config.racing s.draws) { s with draws := s.draws + 1 }
  | cons i rest =>
    have hok : i.Ok s.build := hs i (hi ▸ List.mem_cons_self)
    cases i with
    | setArg p k v =>
      have hq := State.setArg_quiet { s with inputs := rest } p k v
      exact ⟨_, step_of_setArg hi hok, hq.build, hq.inputs⟩
    | writeCmd p w =>
      have hq := State.writeCmd_quiet { s with inputs := rest } p w
      exact ⟨_, step_of_writeCmd hi hok, hq.build, hq.inputs⟩
    | pokeDmem p a b =>
      obtain ⟨hp, ha⟩ := hok
      exact ⟨_, step_of_pokeDmem hi hp ha, rfl, rfl⟩
    | take p drawn =>
      rw [step_of_take hi hok]
      exact takeTurn_next p drawn { s with inputs := rest }
    | reset =>
      refine ⟨{ s with inputs := rest }.resetInput, ?_, rfl, rfl⟩
      unfold step
      rw [hi]

/-- Settles O12: a step that uses up its input leaves only inputs that were listed before it. -/
theorem noStepStopsTheModel : Obligations.NoStepStopsTheModel := by
  intro s hs
  obtain ⟨t, ht, hbuild, hinputs⟩ := step_next hs
  refine ⟨t, ht, fun i hi => ?_⟩
  rw [hinputs] at hi
  rw [hbuild]
  exact hs i (List.mem_of_mem_tail hi)

/-! #### How a command stops once its prerequisite flag is set (R1011, R1030) -/

/-- A stop that is not the fault of a missing flag: any other fault, or a hold on locks with the property `Q`. -/
inductive LaterStop (Q : List Nat → Prop) : Stop → Prop
  | fault {c : FaultCode} (h : c ≠ .notInitialised) : LaterStop Q (.fault c)
  | hold {l : List Nat} (h : Q l) : LaterStop Q (.hold l)

/-- A body, or a check of one, stops in no other way than `LaterStop`. -/
def StopsLater {α : Type} (Q : List Nat → Prop) (x : Except Stop α) : Prop := ∀ e, x = .error e → LaterStop Q e

section
variable {Q : List Nat → Prop} {α β : Type} {s : State}

theorem StopsLater.ok (a : α) : StopsLater Q (.ok a) := fun _ h => by cases h

theorem StopsLater.pure (a : α) : StopsLater Q (pure a) := .ok a

theorem StopsLater.hold {l : List Nat} (h : Q l) : StopsLater Q (.error (.hold l) : Except Stop α) := by
  intro e he
  cases he
  exact .hold h

theorem StopsLater.bind {x : Except Stop α} {f : α → Except Stop β} (hx : StopsLater Q x)
    (hf : ∀ a, StopsLater Q (f a)) : StopsLater Q (x >>= f) := by
  intro e he
  rcases bind_error_iff.mp he with he | ⟨a, -, he⟩
  · exact hx e he
  · exact hf a e he

theorem StopsLater.ite {p : Prop} [Decidable p] {x y : Except Stop α} (hx : p → StopsLater Q x)
    (hy : ¬p → StopsLater Q y) : StopsLater Q (if p then x else y) := by
  split
  · exact hx ‹_›
  · exact hy ‹_›

theorem require_stopsLater (p : Prop) [Decidable p] {c : FaultCode} (hc : c ≠ .notInitialised) :
    StopsLater Q (require p c) := by
  intro e he
  obtain ⟨-, rfl⟩ := require_error_iff.mp he
  exact .fault hc

theorem StopsLater.require {p : Prop} [Decidable p] {c : FaultCode} {f : Unit → Except Stop β}
    (hf : StopsLater Q (f ())) (hc : c ≠ .notInitialised := by decide) : StopsLater Q (require p c >>= f) :=
  .bind (require_stopsLater p hc) fun _ => hf

/-- A set prerequisite flag passes its check, whose fault is then not raised. -/
theorem StopsLater.flag {p : Prop} [Decidable p] {c : FaultCode} {f : Unit → Except Stop β} (hp : p)
    (hf : StopsLater Q (f ())) : StopsLater Q (Machine.require p c >>= f) := by
  rw [require_pos hp]
  exact hf

theorem checkRegion_stopsLater (s : State) (a n al : Nat) : StopsLater Q (checkRegion s a n al) :=
  .require (require_stopsLater _ (by decide))

theorem checkRegions_stopsLater (s : State) (n al : Nat) (l : List Nat) : StopsLater Q (checkRegions s n al l) := by
  induction l with
  | nil => exact .ok ()
  | cons a rest ih => exact .bind (checkRegion_stopsLater s a n al) fun _ => ih

theorem checkAddresses_stopsLater (l : List Nat) : StopsLater Q (checkAddresses l) := by
  induction l with
  | nil => exact .ok ()
  | cons a rest ih => exact .require (.require ih)

theorem checkLayerRegions_stopsLater (s : State) (d : LayerMapDesc) : StopsLater Q (checkLayerRegions s d) :=
  .ite (fun _ => checkAddresses_stopsLater _) fun _ =>
    .bind (checkRegion_stopsLater s _ _ _) fun _ => checkRegions_stopsLater s _ _ _

theorem StopsLater.region {a n al : Nat} {f : Unit → Except Stop β} (hf : StopsLater Q (f ())) :
    StopsLater Q (checkRegion s a n al >>= f) :=
  .bind (checkRegion_stopsLater s a n al) fun _ => hf

theorem StopsLater.regions {n al : Nat} {l : List Nat} {f : Unit → Except Stop β} (hf : StopsLater Q (f ())) :
    StopsLater Q (checkRegions s n al l >>= f) :=
  .bind (checkRegions_stopsLater s n al l) fun _ => hf

theorem StopsLater.desc {daddr n : Nat} {f : List Byte → Except Stop β} (hf : ∀ bs, StopsLater Q (f bs)) :
    StopsLater Q (readDesc s daddr n >>= f) :=
  .bind (.region (.ok _)) hf

theorem StopsLater.handle {h : Nat} {f : Nat × Nat → Except Stop β} (hf : ∀ k e, StopsLater Q (f (k, e))) :
    StopsLater Q (checkHandle s h >>= f) :=
  .bind (.require (.require (.require (.ok _)))) fun x => hf x.1 x.2

end

/-- A hold on `l` is due in `s`: one of its locks is not FREE. -/
def State.WaitsOn (s : State) (l : List Nat) : Prop := ∃ k ∈ l, (s.slotRec k).lock ≠ none

/-- Acquire raises SELF_DEADLOCK or holds on the lock it could not take (R402). -/
theorem StopsLater.acquire {β : Type} {s : State} {k : Nat} {f : State → Except Stop β}
    (hf : ∀ t, StopsLater s.WaitsOn (f t)) : StopsLater s.WaitsOn (s.unwait.acquire k >>= f) := by
  refine .bind (fun e he => ?_) hf
  rcases s.unwait.acquire_cases k with ⟨-, hk⟩ | ⟨-, hk⟩ | ⟨q, -, hlock, hk⟩
  · rw [hk] at he
    cases he
  · rw [hk] at he
    cases he
    exact .fault (by decide)
  · rw [hk] at he
    cases he
    refine .hold ⟨k, List.mem_singleton_self k, ?_⟩
    rw [← s.unwait_lock, hlock]
    exact Option.some_ne_none q

theorem State.waitsOn_of_heldSlots {s : State} (h : s.unwait.heldSlots ≠ []) : s.WaitsOn (List.range s.spf) := by
  obtain ⟨k, hk, hlock⟩ := State.heldSlots_ne_nil_iff.mp h
  exact ⟨k, List.mem_range.mpr hk, by rwa [← s.unwait_lock]⟩

/-- The commands that wait for a lock another port holds (R1030). -/
def Acquires (i : Instr) : Prop := (∃ a b c, i = .ulLockGet a b c) ∨ (∃ a b, i = .ulIterGet a b) ∨ i = .taExpiry

section
variable {Q : List Nat → Prop} (s : State)

theorem llrBody_stopsLater (nm daddr : Nat) : StopsLater Q (llrBody nm daddr s) :=
  .desc fun _ => .require <| .region <| .regions <| .region <| .require (.pure _)

theorem puschBuildBody_stopsLater (daddr : Nat) (hd : s.initDone = true) : StopsLater Q (puschBuildBody daddr s) := by
  refine .flag hd <| .desc fun bs => .require <| .require <| .require <| .require <| .require <|
    .handle fun k e => .require ?_
  split
  · exact .pure _
  · exact .pure _

end

/-- With its flag set an acquiring command stops in a later fault, or in a hold on locks of which one is not FREE. -/
theorem acquiringBody_stopsLater {s : State} {i : Instr} (hi : Acquires i) (hd : s.initDone = true) :
    StopsLater s.WaitsOn (commandBody s i) := by
  rcases hi with ⟨ptype, frame, slot, rfl⟩ | ⟨frame, slot, rfl⟩ | rfl
  · exact .flag hd <| .require <| .require <| .ite (fun _ => .pure _) fun _ => .acquire fun _ => .pure _
  · exact .flag hd <| .require <| .ite (fun _ => .pure _) fun _ => .acquire fun _ => .pure _
  · exact .flag hd <| .require <| .ite (fun h => .hold (s.waitsOn_of_heldSlots h)) fun _ => .pure _

/-- With its flag set a command stops in a later fault, or it is an acquiring command that is held on locks of which
one is not FREE. -/
theorem commandBody_stopsLater {s : State} {i : Instr} (hp : prerequisite s i = true) :
    StopsLater (fun l => Acquires i ∧ s.WaitsOn l) (commandBody s i) := by
  have acquiring : ∀ {j}, Acquires j → s.initDone = true →
      StopsLater (fun l => Acquires j ∧ s.WaitsOn l) (commandBody s j) := fun hj hd e he => by
    cases acquiringBody_stopsLater hj hd e he with
    | fault hc => exact .fault hc
    | hold hl => exact .hold ⟨hj, hl⟩
  cases i with
  | cfgWrite daddr => exact .desc fun _ => .require <| .require <| .require (.pure _)
  | init => exact .flag hp <| .require (.pure _)
  | lcConfig daddr => exact .flag hp <| .desc fun _ => .require (.pure _)
  | taExpiry => exact acquiring (.inr (.inr rfl)) hp
  | ulLockGet ptype frame slot => exact acquiring (.inl ⟨ptype, frame, slot, rfl⟩) hp
  | ulRelease clr handle => exact .flag hp <| .handle fun _ _ => .pure _
  | ulRemoveLast handle => exact .flag hp <| .handle fun _ _ => .require (.pure _)
  | ulIterGet frame slot => exact acquiring (.inr (.inl ⟨frame, slot, rfl⟩)) hp
  | ulPduWrite handle => exact .flag hp <| .handle fun _ _ => .require <| .region (.pure _)
  | ulPduRead handle => exact .flag hp <| .handle fun _ _ => .require <| .region (.pure _)
  | grantTarget daddr =>
    exact .flag hp <| .desc fun _ => .require <| .ite (fun _ => .pure _) fun _ => .ite (fun _ => .pure _) fun _ =>
      .require (.pure _)
  | puschBuild daddr => exact puschBuildBody_stopsLater s daddr hp
  | harqRead index => exact .flag hp <| .require <| .region (.pure _)
  | lcpRun daddr =>
    exact .flag hp <| .desc fun _ => .require <| .region <| .require <| .require <| .require (.pure _)
  | bsrEval daddr => exact .desc fun _ => .require <| .region <| .require (.pure _)
  | lcRead index => exact .flag hp <| .require <| .region (.pure _)
  | layerMap daddr =>
    exact .desc fun _ => .require <| .require <| .bind (checkLayerRegions_stopsLater s _) fun _ => .require (.pure _)
  | tpDft daddr =>
    exact .desc fun _ => .region <| .require <| .require <| .require <| .region <| .region <| .require (.pure _)
  | mapPusch daddr =>
    exact .flag hp <| .desc fun _ => .region <| .require <| .regions <| .region <| .regions <| .region <| .require <|
      .require (.pure _)
  | precode daddr =>
    exact .flag hp <| .desc fun _ => .region <| .require <| .require <| .require <| .region <| .region <|
      .require (.pure _)
  | llr16Qam daddr => exact llrBody_stopsLater s 1 daddr
  | llr64Qam daddr => exact llrBody_stopsLater s 2 daddr
  | llr256Qam daddr => exact llrBody_stopsLater s 3 daddr

/-! #### Prerequisite flags (R1011) -/

/-- A command whose prerequisite flag is 0 raises NOT_INITIALISED before anything else. -/
theorem commandBody_notInitialised {s : State} {i : Instr} (hp : prerequisite s i = false) :
    Raises .notInitialised (commandBody s i) := by
  have unset : ∀ {flag : Bool} {f : Unit → Except Stop State}, flag = false →
      Raises .notInitialised (require (flag = true) .notInitialised >>= f) :=
    fun h => .require (Bool.eq_false_iff.mp h)
  cases i with
  | cfgWrite | bsrEval | layerMap | tpDft | llr16Qam | llr64Qam | llr256Qam => cases hp
  | init | mapPusch | precode => exact unset hp
  | lcConfig | taExpiry | ulLockGet | ulRelease | ulRemoveLast | ulIterGet | ulPduWrite | ulPduRead | grantTarget
  | puschBuild | harqRead | lcpRun | lcRead => exact unset hp

theorem FaultCode.eq_notInitialised {c : FaultCode} (h : c.code = FaultCode.notInitialised.code) :
    c = .notInitialised := by
  cases c with
  | notInitialised => rfl
  | _ => exact absurd h (by decide)

/-- A running PTB ends a command as NOT_INITIALISED does only where the body raised it: a normal end and a hold leave
HALTED at 0, and no other fault has its code. -/
theorem raises_notInitialised_of_exec {s : State} {i : Instr} (hh : s.halted = false)
    (h : exec i s = .next (s.raiseFault .notInitialised)) : Raises .notInitialised (commandBody s i) := by
  rw [exec_eq_finish, Host.Outcome.next.injEq] at h
  rcases finish_cases s (commandBody s i) with ⟨t, ht, he⟩ | ⟨d, hd, he⟩ | ⟨l, -, he⟩
  · rw [he] at h
    have hrun := (commandBody_effect s i t ht).halted.trans hh
    rw [h] at hrun
    cases hrun
  · rw [he] at h
    obtain rfl := FaultCode.eq_notInitialised (c := d) (congrArg State.faultCode h)
    exact hd
  · rw [he] at h
    have hrun := (s.hold_effect l).halted.trans hh
    rw [h] at hrun
    cases hrun

/-- Settles O15: NOT_INITIALISED is the fault of the check of the flag and of no other check. -/
theorem prerequisiteFlags : Obligations.PrerequisiteFlags := by
  intro i s hh
  refine ⟨fun hp => exec_of_raises (commandBody_notInitialised hp), fun hp h => ?_⟩
  cases commandBody_stopsLater hp _ (raises_notInitialised_of_exec hh h) with
  | fault hc => exact hc rfl

/-! #### The three ends of a command (R1000, R1020, R1021, R1030) -/

/-- A body that is held belongs to an acquiring command and waits on a lock that is not FREE. -/
theorem commandBody_held {s : State} {i : Instr} {l : List Nat} (h : commandBody s i = .error (.hold l)) :
    Acquires i ∧ s.WaitsOn l := by
  cases hp : prerequisite s i with
  | false =>
    rw [commandBody_notInitialised hp] at h
    cases h
  | true =>
    cases commandBody_stopsLater hp _ h with
    | hold hl => exact hl

theorem State.lt_length_of_lock {s : State} {k : Nat} (h : (s.slotRec k).lock ≠ none) : k < s.store.length := by
  by_contra hk
  rw [State.slotRec, List.getD_eq_default _ _ (not_lt.mp hk)] at h
  exact h rfl

theorem State.slotRec_mem {s : State} {k : Nat} (h : k < s.store.length) : s.slotRec k ∈ s.store := by
  rw [State.slotRec, List.getD_eq_getElem _ _ h]
  exact List.getElem_mem h

/-- A held port is among the waiters of a lock that is not FREE (log 10). -/
theorem State.hold_waits {s : State} {l : List Nat} (h : s.WaitsOn l) :
    ∃ r ∈ (s.hold l).store, s.cur ∈ r.waiters ∧ r.lock ≠ none := by
  obtain ⟨k, hk, hlock⟩ := h
  have hlen := State.lt_length_of_lock hlock
  refine ⟨(s.hold l).slotRec k, State.slotRec_mem ?_, s.mem_waiters_hold hk hlen, ?_⟩
  · rwa [State.hold_store_length]
  · rwa [(s.hold_sameSlot l k).lock]

/-- Settles O14: the three ends are those of `finish`. -/
theorem commandEndsInOneOfThreeWays : Obligations.CommandEndsInOneOfThreeWays := by
  intro i s t hh h
  rw [exec_eq_finish, Host.Outcome.next.injEq] at h
  subst h
  rcases finish_cases s (commandBody s i) with ⟨t, ht, he⟩ | ⟨c, -, he⟩ | ⟨l, hl, he⟩
  · rw [he]
    exact .inl ⟨(commandBody_effect s i t ht).halted.trans hh, (commandBody_end s i t ht).idle⟩
  · rw [he]
    exact .inr (.inl ⟨c, rfl⟩)
  · rw [he]
    obtain ⟨hi, hwaits⟩ := commandBody_held hl
    exact .inr (.inr ⟨(s.hold_eq l).1, s.hold_sameSlot l, State.hold_waits hwaits, hi⟩)

end Sys2Proof.Machine
end
section
/-! ### The bytes that LCP_RUN writes (spec/41_lcp_bsr.md R520, R522) -/

namespace Sys2Proof.Machine

-- One proof after another, so that the threads of the whole text stay within the memory limit.
set_option Elab.async false

/-- The last step of LCP_RUN unfolded: the data served, the BSR of the second status queries, and padding. -/
theorem lcpFinish_mem_of_statuses (d : LcpDesc) (trig aborted : Bool) (r : LcpProgress) :
    (lcpFinish d trig aborted r).mem =
      let asked := r.st.rlcStatuses r.st.channels
      let bsr := bsrBytes r.remain (r.st.lcgBytes asked.1) (r.st.lcgBest asked.1)
      writeBytes asked.2.mem d.outAddr (r.out ++ bsr ++ paddingBytes (r.remain - bsr.length)) := rfl

end Sys2Proof.Machine
end
section
/-! ### LC_CONFIG and the token bucket (spec/41_lcp_bsr.md R500, R510, R511) -/

namespace Sys2Proof.Machine

-- One proof after another, so that the threads of the whole text stay within the memory limit.
set_option Elab.async false

/-! #### LC_CONFIG (R500) -/

theorem modify_eq_set_getD {α : Type} {l : List α} {k : Nat} (h : k < l.length) (f : α → α) (d : α) :
    l.modify k f = l.set k (f (l.getD k d)) := by
  rw [List.modify_eq_set_getElem?, List.getElem?_eq_getElem h, List.getD_eq_getElem _ _ h]
  rfl

/-- The two flag bits of a descriptor, where no higher bit is set: bit 0 is configured or released, bit 1 is the
infinite PBR. -/
theorem lcFlags_bits {flags : Nat} (h : flags < 4) : bits flags 0 0 = flags % 2 ∧ (bits flags 1 1 = 1 ↔ 2 ≤ flags) := by
  simp only [bits]
  omega

/-- What LC_CONFIG writes, by the flags of the descriptor and by whether the channel was configured. -/
theorem LcEntry.apply_eq {d : LcDesc} (h : d.flags < 4) (now : Nat) (l : LcEntry) :
    l.apply d now = if d.flags % 2 = 0 then ⟨false, 0, 0, false, 0, 0, 0, 0⟩
      else
        { configured := true
          priority := d.priority
          lcg := d.lcg
          pbrInf := decide (2 ≤ d.flags)
          pbrMs := d.pbrMs
          bucketSize := d.bucketSize
          bj := if l.configured then (if 2 ≤ d.flags then l.bj else min l.bj d.bucketSize) else 0
          lastUpdate := if l.configured then l.lastUpdate else now } := by
  obtain ⟨hreleased, hinf⟩ := lcFlags_bits h
  have hinf' : (bits d.flags 1 1 == 1) = decide (2 ≤ d.flags) := by simp [hinf, beq_eq_decide]
  rw [LcEntry.apply, hreleased]
  split
  · rfl
  · simp only [LcEntry.configure, hinf', hinf]
    cases l.configured <;> rfl

/-- Settles O36: the checks pass, and the entry of the table is replaced. -/
theorem lcConfigWritesTheChannel : Obligations.LcConfigWritesTheChannel := by
  intro s daddr hd hlen hr d l hres hid hp1 hp16 hlcg hflags hbucket hframe hslot
  have hlegal : d.legal s.spf = true :=
    LcDesc.legal_iff.mpr ⟨hres, hid, hp1, hp16, hlcg, hflags, hbucket, hframe, hslot⟩
  have hset := modify_eq_set_getD (l := s.lc) (k := d.lcid) (by omega)
    (LcEntry.apply d (s.absSlot d.frame d.slot)) default
  rw [LcEntry.apply_eq hflags] at hset
  have hbody : commandBody s (.lcConfig daddr) =
      .ok ({ s with lc := s.lc.modify d.lcid (LcEntry.apply d (s.absSlot d.frame d.slot)) }.ret statusOk) :=
    require_bind_eq hd (readDesc_bind_eq hr (require_bind_eq hlegal rfl))
  rw [exec_of_body_ok hbody, hset]
  rfl

/-! #### BjUpdate (R510, R511) -/

/-- The slots since the last update, over one wrap of the slot counter (spec/10_state.md R118). -/
theorem elapsed_eq {n last now : Nat} (hlast : last < n) (hnow : now < n) :
    ((now : Int) - last) % (n : Nat) = ((if last ≤ now then now - last else now + n - last : Nat) : Int) := by
  split
  · rw [Int.emod_eq_of_lt] <;> omega
  · rw [← Int.add_emod_right, Int.emod_eq_of_lt] <;> omega

/-- Settles O37: the credit is a minimum with the cap of a sum of the old credit and a natural number. -/
theorem creditIsMonotoneAndCapped : Obligations.CreditIsMonotoneAndCapped := by
  intro spf now l hspf hlast hnow
  refine ⟨rfl, fun hinf => by simp [LcEntry.credit, hinf], fun hinf => ?_⟩
  have hbj : (l.credit spf now).bj = min (l.bj + l.pbrMs *
      ((if l.lastUpdate ≤ now then now - l.lastUpdate else now + 1024 * spf - l.lastUpdate) : Nat)) l.bucketSize := by
    simp only [LcEntry.credit, hinf, elapsed_eq hlast hnow, Bool.false_eq_true, if_false]
  refine ⟨hbj, fun hcap => ?_⟩
  rw [hbj]
  exact ⟨le_min (le_add_of_nonneg_right (by positivity)) hcap, min_le_right ..⟩

end Sys2Proof.Machine
end
section
/-! ### The buffer status report (spec/41_lcp_bsr.md R540 to R544) -/

namespace Sys2Proof.Machine

-- One proof after another, so that the threads of the whole text stay within the memory limit.
set_option Elab.async false

/-! #### Buffer-size indices (R541) -/

section
variable {n : Nat} (steps : Vector (Option Nat) n)

theorem bufferIndex_eq_zero_iff (b : Nat) : bufferIndex steps b = 0 ↔ b = 0 := by
  unfold bufferIndex
  split <;> omega

/-- An index is at most one more than the number of thresholds. -/
theorem bufferIndex_le (b : Nat) : bufferIndex steps b ≤ n + 1 := by
  unfold bufferIndex
  split
  · exact Nat.zero_le _
  · rw [Nat.add_comm]
    exact Nat.succ_le_succ (List.countP_le_length.trans_eq (Vector.length_toList ..))

/-- A larger byte count is above at least the same thresholds. -/
theorem bufferIndex_mono {b b' : Nat} (h : b ≤ b') : bufferIndex steps b ≤ bufferIndex steps b' := by
  rcases Nat.eq_zero_or_pos b with rfl | hb
  · exact ((bufferIndex_eq_zero_iff steps 0).mpr rfl).trans_le (Nat.zero_le _)
  · unfold bufferIndex
    rw [if_neg (by omega), if_neg (by omega)]
    refine Nat.add_le_add_left (List.countP_mono_left fun o _ ho => ?_) 1
    cases o with
    | none => cases ho
    | some t => exact decide_eq_true (lt_of_lt_of_le (of_decide_eq_true ho) h)

end

/-! #### The LCGs with data, ascending and by their priorities (R542, R544) -/

/-- LCG `g` comes before LCG `h` in a truncated BSR: by the best priority, then by the number (R544). -/
def BestBefore (best : List Nat) (g h : Nat) : Prop :=
  best.getD g 255 < best.getD h 255 ∨ (best.getD g 255 = best.getD h 255 ∧ g < h)

theorem BestBefore.asymm {best : List Nat} {g h : Nat} (hgh : BestBefore best g h) : ¬BestBefore best h g := by
  unfold BestBefore at *
  omega

section
variable (bytes : List Nat) {best : List Nat}

theorem mem_lcgsWithData {g : Nat} : g ∈ lcgsWithData bytes ↔ g < 8 ∧ 0 < bytes.getD g 0 := by
  simp [lcgsWithData]

theorem lcgsWithData_pairwise : (lcgsWithData bytes).Pairwise (· < ·) := List.pairwise_lt_range.filter _

theorem getLsbD_lcgBitmap {g : Nat} (h : g < 8) :
    (lcgBitmap bytes).getLsbD g = decide (g ∈ lcgsWithData bytes) := by
  rw [lcgBitmap, getLsbD_maskOf]
  simp [h]

/-- A best priority is a byte, also where a list holds none (R544). -/
theorem best_lt (hbest : ∀ b ∈ best, b ≤ 255) (g : Nat) : best.getD g 255 < 256 := by
  rw [List.getD_eq_getElem?_getD]
  cases h : best[g]? with
  | none => decide
  | some b => exact Nat.lt_succ_of_le (hbest b (List.mem_of_getElem? h))

theorem mem_lcgsByPriority (hbest : ∀ b ∈ best, b ≤ 255) {g : Nat} :
    g ∈ lcgsByPriority bytes best ↔ g ∈ lcgsWithData bytes := by
  simp only [lcgsByPriority, List.mem_flatMap, List.mem_range, List.mem_filter, beq_iff_eq]
  exact ⟨fun ⟨_, _, hg, _⟩ => hg, fun hg => ⟨_, best_lt hbest g, hg, rfl⟩⟩

/-- The LCGs of a truncated BSR are taken in the order of R544. -/
theorem lcgsByPriority_pairwise : (lcgsByPriority bytes best).Pairwise (BestBefore best) := by
  refine List.pairwise_flatMap.mpr ⟨fun p _ => ?_, List.pairwise_lt_range.imp fun {p q} hpq g hg h hh => ?_⟩
  · refine ((lcgsWithData_pairwise bytes).filter _).imp_of_mem fun {g h} hg hh hlt => .inr ⟨?_, hlt⟩
    rw [eq_of_beq (List.mem_filter.mp hg).2, eq_of_beq (List.mem_filter.mp hh).2]
  · refine .inl ?_
    rwa [eq_of_beq (List.mem_filter.mp hg).2, eq_of_beq (List.mem_filter.mp hh).2]

theorem lcgsByPriority_nodup : (lcgsByPriority bytes best).Nodup :=
  (lcgsByPriority_pairwise bytes).imp fun hgh he => by
    subst he
    exact hgh.asymm hgh

theorem lcgsByPriority_perm (hbest : ∀ b ∈ best, b ≤ 255) : (lcgsByPriority bytes best).Perm (lcgsWithData bytes) :=
  (List.perm_ext_iff_of_nodup (lcgsByPriority_nodup bytes) (lcgsWithData_nodup bytes)).mpr fun _ =>
    mem_lcgsByPriority bytes hbest

/-- The LCG that comes before all the others is the first of the list. -/
theorem take_one_lcgsByPriority (hbest : ∀ b ∈ best, b ≤ 255) {g : Nat} (hg : g ∈ lcgsWithData bytes)
    (hfirst : ∀ h ∈ lcgsWithData bytes, h ≠ g → BestBefore best g h) : (lcgsByPriority bytes best).take 1 = [g] := by
  have hmem := (mem_lcgsByPriority bytes hbest).mpr hg
  have hsorted := lcgsByPriority_pairwise bytes (best := best)
  cases hl : lcgsByPriority bytes best with
  | nil => simp [hl] at hmem
  | cons x rest =>
    have hx : x ∈ lcgsWithData bytes := (mem_lcgsByPriority bytes hbest).mp (by simp [hl])
    rw [hl] at hmem hsorted
    by_cases hxg : x = g
    · simp [hxg]
    · have hrest : g ∈ rest := (List.mem_cons.mp hmem).resolve_left (Ne.symm hxg)
      exact absurd ((List.pairwise_cons.mp hsorted).1 g hrest) (hfirst x hx hxg).asymm

/-- The LCGs of a truncated BSR with `m` fields, ascending (R544). -/
def lcgsReported (best : List Nat) (m : Nat) : List Nat :=
  (lcgsWithData bytes).filter fun g => decide (g ∈ (lcgsByPriority bytes best).take m)

theorem lcgsReported_length (hbest : ∀ b ∈ best, b ≤ 255) {m : Nat} (hm : m ≤ (lcgsWithData bytes).length) :
    (lcgsReported bytes best m).length = m := by
  have hperm : (lcgsReported bytes best m).Perm ((lcgsByPriority bytes best).take m) := by
    refine (List.perm_ext_iff_of_nodup ((lcgsWithData_nodup bytes).filter _)
      ((lcgsByPriority_nodup bytes).sublist (List.take_sublist ..))).mpr fun g => ?_
    rw [List.mem_filter, decide_eq_true_eq]
    exact and_iff_right_of_imp fun hg => (mem_lcgsByPriority bytes hbest).mp (List.mem_of_mem_take hg)
  rw [hperm.length_eq, List.length_take, (lcgsByPriority_perm bytes hbest).length_eq, min_eq_left hm]

/-- Every LCG reported comes before every one that is left out. -/
theorem bestBefore_of_reported (hbest : ∀ b ∈ best, b ≤ 255) {m g h : Nat} (hg : g ∈ lcgsReported bytes best m)
    (hh : h ∈ lcgsWithData bytes) (hout : h ∉ lcgsReported bytes best m) : BestBefore best g h := by
  have hsorted := lcgsByPriority_pairwise bytes (best := best)
  rw [← List.take_append_drop m (lcgsByPriority bytes best), List.pairwise_append] at hsorted
  obtain ⟨-, -, hacross⟩ := hsorted
  have htake : g ∈ (lcgsByPriority bytes best).take m := of_decide_eq_true (List.mem_filter.mp hg).2
  have hnot : h ∉ (lcgsByPriority bytes best).take m := fun hin =>
    hout (List.mem_filter.mpr ⟨hh, decide_eq_true hin⟩)
  have hmem := (mem_lcgsByPriority bytes hbest).mpr hh
  rw [← List.take_append_drop m (lcgsByPriority bytes best), List.mem_append] at hmem
  exact hacross g htake h (hmem.resolve_left hnot)

end

/-! #### The rows of R542 -/

section
variable {space n : Nat}

theorem bsrFormat_none (h : n = 0 ∨ space < 2) : bsrFormat space n = 0 := by
  unfold bsrFormat
  split_ifs <;> omega

theorem bsrFormat_short (hs : 2 ≤ space) : bsrFormat space 1 = 1 := by
  unfold bsrFormat
  split_ifs <;> omega

theorem bsrFormat_long (hn : 2 ≤ n) (hs : 3 + n ≤ space) : bsrFormat space n = 3 := by
  unfold bsrFormat
  split_ifs <;> omega

theorem bsrFormat_longTruncated (hlow : 4 ≤ space) (hhigh : space < 3 + n) (hn : 2 ≤ n) : bsrFormat space n = 4 := by
  unfold bsrFormat
  split_ifs <;> omega

theorem bsrFormat_shortTruncated (hn : 2 ≤ n) (hs : space = 2 ∨ space = 3) : bsrFormat space n = 2 := by
  unfold bsrFormat
  split_ifs <;> omega

theorem bsrFormat_le (space n : Nat) : bsrFormat space n ≤ 4 := by
  unfold bsrFormat
  split_ifs <;> omega

end

/-! #### The bytes in each format (R543, R544) -/

section
variable {space : Nat} {bytes best : List Nat}

theorem bsrBytes_none (h : bsrFormat space (lcgsWithData bytes).length = 0) : bsrBytes space bytes best = [] := by
  simp only [bsrBytes, h]

theorem bsrBytes_short (h : bsrFormat space (lcgsWithData bytes).length = 1) :
    bsrBytes space bytes best = 0x3D :: ((lcgsWithData bytes).take 1).map (shortBody bytes) := by
  simp only [bsrBytes, h]

theorem bsrBytes_shortTruncated (h : bsrFormat space (lcgsWithData bytes).length = 2) :
    bsrBytes space bytes best = 0x3B :: ((lcgsByPriority bytes best).take 1).map (shortBody bytes) := by
  simp only [bsrBytes, h]

theorem bsrBytes_long (h : bsrFormat space (lcgsWithData bytes).length = 3) :
    bsrBytes space bytes best = 0x3E :: BitVec.ofNat 8 (1 + (lcgsWithData bytes).length) :: lcgBitmap bytes ::
      longFields bytes (lcgsWithData bytes) := by
  simp only [bsrBytes, h]

theorem bsrBytes_longTruncated (h : bsrFormat space (lcgsWithData bytes).length = 4) :
    bsrBytes space bytes best = 0x3C :: BitVec.ofNat 8 (1 + (space - 3)) :: lcgBitmap bytes ::
      longFields bytes (lcgsReported bytes best (space - 3)) := by
  simp only [bsrBytes, h, lcgsReported]

theorem map_shortBody (bytes : List Nat) (g : Nat) :
    [g].map (shortBody bytes) = [BitVec.ofNat 8 (32 * g + bs5 (bytes.getD g 0))] := by
  rw [List.map_singleton, shortBody, Nat.mul_comm]

end

/-- Settles O41: each row of R542 picks a format, and the format its bytes. -/
theorem bsrFormatAndSize : Obligations.BsrFormatAndSize := by
  refine ⟨?rows, fun b b' hb => ⟨bufferIndex_mono _ hb, bufferIndex_mono _ hb, bufferIndex_le _ b,
    bufferIndex_le _ b, bufferIndex_eq_zero_iff _ b, bufferIndex_eq_zero_iff _ b⟩⟩
  intro S bytes best hbest gs n ce before field bitmap
  have hfit : ce.length ≤ min S 11 := bsrBytes_length_le S bytes best
  have nothing : n = 0 ∨ S < 2 → bsrFormat S n = 0 ∧ ce = [] := fun h =>
    ⟨bsrFormat_none h, bsrBytes_none (bsrFormat_none h)⟩
  have hbitmap : bitmap (lcgBitmap bytes) := fun g hg => getLsbD_lcgBitmap bytes hg
  refine ⟨by omega, by omega, fun hn => nothing (.inl hn), fun g hg hS => ?short, fun _ hS => nothing (.inr hS),
    fun hn hS => ?long, fun hn hlow hhigh => ?longTruncated, fun g hg hfirst hn hS => ?shortTruncated,
    fun _ hS => nothing (.inr hS)⟩
  case short =>
    have hfmt : bsrFormat S n = 1 := by
      have hone : n = 1 := congrArg List.length hg
      rw [hone]
      exact bsrFormat_short hS
    have hlist : lcgsWithData bytes = [g] := hg
    refine ⟨hfmt, (bsrBytes_short hfmt).trans ?_⟩
    rw [hlist, show [g].take 1 = [g] from rfl, map_shortBody]
  case long =>
    have hfmt : bsrFormat S n = 3 := bsrFormat_long hn hS
    exact ⟨hfmt, lcgBitmap bytes, hbitmap, bsrBytes_long hfmt⟩
  case longTruncated =>
    have hfmt : bsrFormat S n = 4 := bsrFormat_longTruncated hlow hhigh hn
    refine ⟨hfmt, lcgBitmap bytes, lcgsReported bytes best (S - 3), hbitmap, List.filter_sublist,
      lcgsReported_length bytes hbest (?_ : S - 3 ≤ n), fun g hg h hh hout =>
        bestBefore_of_reported bytes hbest hg hh hout, (bsrBytes_longTruncated hfmt).trans ?_⟩
    · omega
    · rw [show 1 + (S - 3) = S - 2 by omega]
      rfl
  case shortTruncated =>
    have hfmt : bsrFormat S n = 2 := bsrFormat_shortTruncated hn hS
    refine ⟨hfmt, (bsrBytes_shortTruncated hfmt).trans ?_⟩
    rw [take_one_lcgsByPriority bytes hbest hg hfirst, map_shortBody]

/-! #### BSR_EVAL (R540) -/

/-- A region that ends before another begins shares no byte with it. -/
theorem clearOf_singleton {a n b k : Nat} (h : a + n ≤ b ∨ b + k ≤ a) : clearOf (a, n) [(b, k)] = true := by
  rw [clearOf_eq_true_iff]
  intro y hy
  rw [List.mem_singleton.mp hy]
  simp only [overlaps, Bool.and_eq_false_iff, decide_eq_false_iff_not]
  omega

/-- Settles O42: the checks pass, and what is left writes the BSR. -/
theorem bsrEvalWritesTheBsr : Obligations.BsrEvalWritesTheBsr := by
  intro s daddr hr d ce hd hout hclear
  refine ⟨writeBytes s.mem d.outAddr ce, exec_of_body_ok ?_, readBytes_writeBytes .., sameOutside_writeBytes _ _ rfl⟩
  have hlegal : d.legal = true := BsrDesc.legal_iff.mpr hd
  have hapart : clearOf (d.outAddr, ce.length) [descRegion daddr 48] = true := clearOf_singleton hclear
  refine readDesc_bind_eq hr (require_bind_eq hlegal (checkRegion_bind_eq hout (require_bind_eq hapart ?_)))
  refine congrArg Except.ok ?_
  simp only [State.ret, State.setRes0, State.setRes1, State.modPort, List.modify_modify_eq]
  rfl

end Sys2Proof.Machine
end
section
/-! ### LCP_RUN: its checks, the credit and the passes (spec/41_lcp_bsr.md R510 to R522) -/

namespace Sys2Proof.Machine

-- One proof after another, so that the threads of the whole text stay within the memory limit.
set_option Elab.async false

/-! #### The body of LCP_RUN (R520) -/

/-- The state in which an LCP_RUN that passes its checks ends, from the state with the credited buckets. -/
def lcpEnd (d : LcpDesc) (s : State) : State :=
  lcpFinish d (lcpServeAll d s).2.2 (lcpServeAll d s).2.1 (lcpServeAll d s).1

/-- A normal end of LCP_RUN is `lcpEnd`. -/
theorem eq_lcpEnd_of_lcpRunBody {s t : State} {daddr : Nat} (h : lcpRunBody daddr s = .ok t) :
    let d := lcpDescOfBytes (readBytes s.mem (4 * daddr) 12)
    t = lcpEnd d (s.creditAll (s.absSlot d.frame d.slot)) := by
  obtain ⟨-, -, h⟩ := bind_ok_iff.mp h
  obtain ⟨bs, hbs, h⟩ := bind_ok_iff.mp h
  obtain ⟨-, rfl⟩ := readDesc_ok_iff.mp hbs
  obtain ⟨-, -, h⟩ := bind_ok_iff.mp h
  obtain ⟨-, -, h⟩ := bind_ok_iff.mp h
  obtain ⟨-, -, h⟩ := bind_ok_iff.mp h
  obtain ⟨-, -, h⟩ := bind_ok_iff.mp h
  obtain ⟨-, -, h⟩ := bind_ok_iff.mp h
  exact (pure_ok_iff.mp h).symm

/-! #### The buckets stay in range (R512) -/

section
variable {s : State} {d : LcpDesc}

theorem State.bjInRange_of_ok {spf : Nat} (h : ∀ l ∈ s.lc, l.Ok spf) : s.bjInRange = true := by
  simp only [State.bjInRange, List.all_eq_true, decide_eq_true_eq]
  intro l hl
  have hlow := (h l hl).low
  have hhigh := (h l hl).high
  omega

theorem State.absSlot_lt {frame slot : Nat} (hframe : frame ≤ 1023) (hslot : slot < s.spf) :
    s.absSlot frame slot < 1024 * s.spf := by
  have := Nat.mul_le_mul_right s.spf hframe
  unfold State.absSlot
  omega

theorem State.creditAll_ok (h : ∀ l ∈ s.lc, l.Ok s.spf) {now : Nat} (hnow : now < 1024 * s.spf) :
    ∀ l ∈ (s.creditAll now).lc, l.Ok s.spf := by
  intro l hl
  simp only [State.creditAll_lc, List.mem_map] at hl
  obtain ⟨l, hl, rfl⟩ := hl
  split
  · exact (h l hl).credited hnow
  · exact h l hl

theorem lcpEnd_ok (h : ∀ l ∈ s.lc, l.Ok s.spf) (hbuflen : d.buflen ≤ 2 ^ 26) : ∀ l ∈ (lcpEnd d s).lc, l.Ok s.spf := by
  obtain ⟨D, hinv⟩ := lcpServeAll_inv s hbuflen
  rw [lcpEnd, (lcpFinish_quiet ..).lc]
  exact hinv.sound h

theorem RegionOk.length_le {a n al : Nat} (h : RegionOk s a n al) : n ≤ 2 ^ 26 := by
  have hsize : s.build.dmemSize ≤ 2 ^ 26 := Nat.le_of_lt_succ s.build.dmemSizeFin.isLt
  omega

/-- Both INT_RANGE checks of LCP_RUN pass where the buckets are in range (log 21). -/
theorem lcpBuckets_inRange (h : ∀ l ∈ s.lc, l.Ok s.spf) (hd : d.legal s.spf = true) (hbuflen : d.buflen ≤ 2 ^ 26) :
    (s.creditAll (s.absSlot d.frame d.slot)).bjInRange = true ∧
      (lcpEnd d (s.creditAll (s.absSlot d.frame d.slot))).bjInRange = true := by
  obtain ⟨-, hframe, hslot, -⟩ := LcpDesc.legal_iff.mp hd
  have hcredit := State.creditAll_ok h (State.absSlot_lt hframe hslot)
  exact ⟨State.bjInRange_of_ok hcredit, State.bjInRange_of_ok (lcpEnd_ok hcredit hbuflen)⟩

end

/-- A check that passes, or whose fault is another one, leaves it to the rest of the body whether `c` is raised. -/
theorem not_raises_of_require {p : Prop} [Decidable p] {β : Type} {c c' : FaultCode} {f : Unit → Except Stop β}
    (hc : p ∨ c' ≠ c) (hf : p → ¬Raises c (f ())) : ¬Raises c (require p c' >>= f) := by
  intro h
  rcases bind_error_iff.mp h with h | ⟨_, hp, h⟩
  · obtain ⟨hp, he⟩ := require_error_iff.mp h
    injection he with he
    rcases hc with hc | hc
    · exact hp hc
    · exact hc he.symm
  · exact hf (require_ok_iff.mp hp) h

theorem not_raises_of_checkRegion {β : Type} {s : State} {a n al : Nat} {c : FaultCode} {f : Unit → Except Stop β}
    (hrange : FaultCode.dmemRange ≠ c) (halign : FaultCode.misaligned ≠ c)
    (hf : RegionOk s a n al → ¬Raises c (f ())) : ¬Raises c (checkRegion s a n al >>= f) := by
  rw [checkRegion, bind_assoc]
  exact not_raises_of_require (.inr hrange) fun hin => not_raises_of_require (.inr halign) fun hal => hf ⟨hin, hal⟩

theorem lcpRunBody_not_intRange {s : State} (h : ∀ l ∈ s.lc, l.Ok s.spf) (daddr : Nat) :
    ¬Raises .intRange (lcpRunBody daddr s) := by
  refine not_raises_of_require (.inr (by decide)) fun _ => ?_
  rw [readDesc, bind_assoc]
  refine not_raises_of_checkRegion (by decide) (by decide) fun _ =>
    not_raises_of_require (.inr (by decide)) fun hd =>
    not_raises_of_checkRegion (by decide) (by decide) fun hregion =>
    not_raises_of_require (.inr (by decide)) fun _ => ?_
  obtain ⟨hcredit, hend⟩ := lcpBuckets_inRange h hd hregion.length_le
  refine not_raises_of_require (.inl hcredit) fun _ => not_raises_of_require (.inl hend) fun _ hok => ?_
  cases hok

theorem FaultCode.eq_intRange {c : FaultCode} (h : c.code = FaultCode.intRange.code) : c = .intRange := by
  cases c with
  | intRange => rfl
  | _ => exact absurd h (by decide)

/-- Settles O40: only the body could raise it, since a normal end and a hold leave HALTED at 0. -/
theorem intRangeIsUnreachable : Obligations.IntRangeIsUnreachable := by
  intro s daddr hinv hh h
  rw [exec_eq_finish, Host.Outcome.next.injEq] at h
  rcases finish_cases s (commandBody s (.lcpRun daddr)) with ⟨t, ht, he⟩ | ⟨c, hc, he⟩ | ⟨l, -, he⟩
  · have hrun := (commandBody_effect s _ t ht).halted.trans hh
    rw [← he, h] at hrun
    cases hrun
  · rw [he] at h
    obtain rfl := FaultCode.eq_intRange (c := c) (congrArg State.faultCode h)
    exact lcpRunBody_not_intRange hinv.2 daddr hc
  · have hrun := (s.hold_effect l).halted.trans hh
    rw [← he, h] at hrun
    cases hrun

/-! #### What the passes change of the state (R514, R522) -/

/-- Of the state, only the logical channels and the oracle differ. -/
def LcOnly (s t : State) : Prop := t = { s with lc := t.lc, rlc := t.rlc, draws := t.draws }

theorem LcOnly.refl (s : State) : LcOnly s s := rfl

theorem LcOnly.trans {s t u : State} (h : LcOnly s t) (g : LcOnly t u) : LcOnly s u := by
  unfold LcOnly at *
  rw [g, h]

theorem State.rlcStatus_lcOnly (s : State) (j : Nat) : LcOnly s (s.rlcStatus j).2 := by
  rw [s.rlcStatus_frame j]
  rfl

theorem State.rlcData_lcOnly (s : State) (j n : Nat) : LcOnly s (s.rlcData j n).2 := by
  rw [(s.rlcData_frame j n).2]
  rfl

theorem State.charge_lcOnly (s : State) (j k : Nat) : LcOnly s (s.charge j k) := rfl

theorem lcpServe_lcOnly (j : Nat) (data : List Byte) (r : LcpProgress) : LcOnly r.st (lcpServe j data r).st := by
  unfold lcpServe
  split
  · exact .refl _
  · exact (r.st.charge_lcOnly j data.length).trans (State.rlcStatus_lcOnly _ j)

/-! #### The listed answers of the oracle (spec/20_memory.md R240, log 4) -/

theorem State.rlcStatus_listed {s : State} {a : RlcAnswer} {rest : List RlcAnswer} (h : s.rlc = a :: rest) (j : Nat) :
    s.rlcStatus j = (a.status.toNat, { s with rlc := rest }) := by simp [State.rlcStatus, h]

theorem State.rlcData_listed {s : State} {a : RlcAnswer} {rest : List RlcAnswer} (h : s.rlc = a :: rest) (j n : Nat) :
    s.rlcData j n = (a.data.take n, { s with rlc := rest }) := by simp [State.rlcData, h]

theorem State.rlcStatus_rlc (s : State) (j : Nat) : (s.rlcStatus j).2.rlc = s.rlc.tail := by
  unfold State.rlcStatus
  split
  · rename_i h
    rw [h, List.tail_cons]
  · rename_i h
    simp [h]

theorem State.rlcData_rlc (s : State) (j n : Nat) : (s.rlcData j n).2.rlc = s.rlc.tail := by
  unfold State.rlcData
  split
  · rename_i h
    rw [h, List.tail_cons]
  · rename_i h
    simp [h]

theorem State.rlcStatuses_rlc (s : State) (l : List Nat) : (s.rlcStatuses l).2.rlc = s.rlc.drop l.length := by
  induction l generalizing s with
  | nil => rfl
  | cons j rest ih =>
    rw [State.rlcStatuses, ih, State.rlcStatus_rlc, List.drop_tail]
    rfl

/-! #### One turn of a channel (R514 to R516, R519, R522) -/

section
variable {pass : Nat} {ep : Int} {r : LcpProgress} {j : Nat}

/-- A channel asks for nothing where no data byte fits or its request is not positive. -/
theorem lcpTurn_idle (h : r.remain ≤ 3 ∨ lcpRequest r.st.build pass ep r.remain (r.st.lcEntry j) ≤ 0) :
    lcpTurn pass ep r j = r := by
  unfold lcpTurn
  split
  · rfl
  · exact if_pos (h.resolve_left ‹_›)

theorem lcpTurn_asks (h3 : 3 < r.remain) (hreq : 0 < lcpRequest r.st.build pass ep r.remain (r.st.lcEntry j)) :
    lcpTurn pass ep r j =
      lcpServe j (r.st.rlcData j (lcpRequest r.st.build pass ep r.remain (r.st.lcEntry j)).toNat).1
        { r with st := (r.st.rlcData j (lcpRequest r.st.build pass ep r.remain (r.st.lcEntry j)).toNat).2 } := by
  unfold lcpTurn
  rw [if_neg (not_le.mpr h3)]
  exact if_neg (not_le.mpr hreq)

theorem lcpServe_nothing (j : Nat) (r : LcpProgress) :
    lcpServe j [] r = { r with ds := r.ds.filter fun i => decide (i ≠ j) } := if_pos rfl

theorem lcpServe_data {data : List Byte} (h : data ≠ []) : lcpServe j data r =
    { st := ((r.st.charge j data.length).rlcStatus j).2
      remain := r.remain - (sduHeader j data.length ++ data).length
      out := r.out ++ (sduHeader j data.length ++ data)
      ds := if 0 < ((r.st.charge j data.length).rlcStatus j).1 then r.ds
        else r.ds.filter fun i => decide (i ≠ j)
      served := r.served + data.length } := if_neg h

/-- The bucket of the channel served pays for the bytes, and no other entry changes (R522). -/
theorem lcpServe_lc {data : List Byte} (h : data ≠ []) (hj : j < r.st.lc.length) :
    (lcpServe j data r).st.lc = r.st.lc.set j { r.st.lcEntry j with
      bj := if (r.st.lcEntry j).pbrInf then (r.st.lcEntry j).bj else (r.st.lcEntry j).bj - data.length } := by
  rw [lcpServe_data h, (State.rlcStatus_quiet _ j).lc, State.charge_lc, modify_eq_set_getD hj _ default]
  rfl

theorem lcpServe_remain {data : List Byte} (h : data ≠ []) (hfit : data.length + 3 ≤ r.remain) :
    (lcpServe j data r).remain + (sduHeader j data.length ++ data).length = r.remain := by
  have hheader := sduHeader_length j data.length
  rw [lcpServe_data h, List.length_append]
  dsimp only
  omega

/-- An SDU of a request has at most 3 bytes of subheader, and so fits the free space. -/
theorem rlcData_fits (h3 : 3 < r.remain) (pass : Nat) (ep : Int) (j : Nat) (l : LcEntry) :
    (r.st.rlcData j (lcpRequest r.st.build pass ep r.remain l).toNat).1.length + 3 ≤ r.remain := by
  have hreq := lcpRequest_le r.st.build pass ep r.remain l
  have hlen := (r.st.rlcData_frame j (lcpRequest r.st.build pass ep r.remain l).toNat).1
  omega

/-- What a turn can do: nothing, or ask the RLC for bytes that fit behind a subheader, and serve them. -/
theorem lcpTurn_cases (pass : Nat) (ep : Int) (r : LcpProgress) (j : Nat) :
    lcpTurn pass ep r j = r ∨ ∃ n, (r.st.rlcData j n).1.length + 3 ≤ r.remain ∧
      lcpTurn pass ep r j = lcpServe j (r.st.rlcData j n).1 { r with st := (r.st.rlcData j n).2 } := by
  by_cases h : r.remain ≤ 3 ∨ lcpRequest r.st.build pass ep r.remain (r.st.lcEntry j) ≤ 0
  · exact .inl (lcpTurn_idle h)
  · obtain ⟨h3, hreq⟩ := not_or.mp h
    exact .inr ⟨_, rlcData_fits (not_le.mp h3) pass ep j _, lcpTurn_asks (not_le.mp h3) (not_le.mp hreq)⟩

/-- Every byte served takes at least its own space. -/
theorem lcpTurn_space (pass : Nat) (ep : Int) (r : LcpProgress) (j : Nat) :
    (lcpTurn pass ep r j).served + (lcpTurn pass ep r j).remain ≤ r.served + r.remain := by
  rcases lcpTurn_cases pass ep r j with h | ⟨n, hfit, h⟩
  · rw [h]
  · rw [h]
    by_cases hdata : (r.st.rlcData j n).1 = []
    · rw [hdata, lcpServe_nothing]
    · rw [lcpServe_data hdata, List.length_append]
      dsimp only
      omega

end

/-! #### Tiers and passes (R516, R517) -/

/-- What every turn keeps, a pass keeps. -/
theorem lcpPass_keeps {P : LcpProgress → Prop} (pass : Nat)
    (turn : ∀ ep r j, P r → P (lcpTurn pass ep r j)) {r : LcpProgress} (h : P r) : P (lcpPass pass r) :=
  List.foldlRecOn _ _ h fun _ hr _ _ => List.foldlRecOn _ _ hr fun _ hr _ _ => turn _ _ _ hr

/-- A pass that serves a byte takes space. -/
theorem lcpPass_space (pass : Nat) (r : LcpProgress) :
    (lcpPass pass { r with served := 0 }).served + (lcpPass pass { r with served := 0 }).remain ≤ r.remain :=
  lcpPass_keeps (P := fun t => t.served + t.remain ≤ r.remain) pass
    (fun ep t j ht => (lcpTurn_space pass ep t j).trans ht) (Nat.zero_add _).le

section
variable {fuel pass : Nat} {r : LcpProgress}

theorem lcpPasses_done (h : r.remain ≤ 3 ∨ r.ds = []) : lcpPasses fuel pass r = r := by
  cases fuel with
  | zero => rfl
  | succ fuel => exact if_pos h

theorem lcpPasses_pass (h3 : 3 < r.remain) (hds : r.ds ≠ []) : lcpPasses (fuel + 1) pass r =
    if 1 ≤ pass ∧ (lcpPass pass { r with served := 0 }).served = 0 then lcpPass pass { r with served := 0 }
    else lcpPasses fuel (pass + 1) (lcpPass pass { r with served := 0 }) :=
  if_neg (not_or.mpr ⟨not_le.mpr h3, hds⟩)

/-- From the second pass on, each pass that goes on takes space: as many passes as bytes are free are enough. -/
theorem lcpPasses_fuel {fuel' : Nat} (hpass : 1 ≤ pass) (h : r.remain ≤ fuel) (h' : r.remain ≤ fuel') :
    lcpPasses fuel pass r = lcpPasses fuel' pass r := by
  induction fuel generalizing fuel' pass r with
  | zero => rw [lcpPasses_done (.inl (by omega)), lcpPasses_done (.inl (by omega))]
  | succ fuel ih =>
    by_cases hdone : r.remain ≤ 3 ∨ r.ds = []
    · rw [lcpPasses_done hdone, lcpPasses_done hdone]
    · obtain ⟨h3, hds⟩ := not_or.mp hdone
      obtain ⟨fuel', rfl⟩ : ∃ k, fuel' = k + 1 := ⟨fuel' - 1, by omega⟩
      rw [lcpPasses_pass (not_le.mp h3) hds, lcpPasses_pass (not_le.mp h3) hds]
      have hspace := lcpPass_space pass r
      split
      · rfl
      · exact ih (by omega) (by omega) (by omega)

/-- The first pass need not take space, so one more is enough in all. -/
theorem lcpPasses_fuel_from_zero (h : r.remain + 2 ≤ fuel) : lcpPasses fuel 0 r = lcpPasses (r.remain + 2) 0 r := by
  by_cases hdone : r.remain ≤ 3 ∨ r.ds = []
  · rw [lcpPasses_done hdone, lcpPasses_done hdone]
  · obtain ⟨h3, hds⟩ := not_or.mp hdone
    obtain ⟨fuel, rfl⟩ : ∃ k, fuel = k + 1 := ⟨fuel - 1, by omega⟩
    have hspace := lcpPass_space 0 r
    rw [lcpPasses_pass (not_le.mp h3) hds, lcpPasses_pass (not_le.mp h3) hds, if_neg (by omega), if_neg (by omega)]
    exact lcpPasses_fuel le_rfl (by omega) (by omega)

end

/-! #### What LCP_RUN writes (R522 to R524) -/

theorem readBytes_writeBytes_append (m : List Host.Cell) (a : Nat) (l l' : List Byte) :
    readBytes (writeBytes m a (l ++ l')) a l.length = l := by
  have h := readBytes_writeBytes m a (l ++ l')
  rw [List.length_append, readBytes_add] at h
  exact (List.append_inj h (readBytes_length ..)).1

/-- The trigger as it stands when the passes begin. -/
def lcpTriggered (s : State) : State := (s.rlcStatuses s.channels).2.triggerEval (s.rlcStatuses s.channels).1

/-- An abort takes place where the passes would do nothing, so their bytes are the same. -/
theorem lcpServeAll_out (d : LcpDesc) (s : State) : (lcpServeAll d s).1.out =
    (lcpPasses (d.buflen + 2) 0 (lcpStart d.buflen (s.rlcStatuses s.channels).1 (lcpTriggered s))).out := by
  unfold lcpServeAll
  dsimp only
  split
  · rename_i h
    obtain ⟨h3, -⟩ := of_decide_eq_true h
    have hdone : lcpPasses (d.buflen + 2) 0 (lcpStart d.buflen (s.rlcStatuses s.channels).1 (lcpTriggered s)) =
        lcpStart d.buflen (s.rlcStatuses s.channels).1 (lcpTriggered s) := lcpPasses_done (.inl h3)
    rw [hdone]
    rfl
  · rfl

/-- The LCG totals of the second status queries (R525). -/
def LcpProgress.totals (r : LcpProgress) : List Nat := r.st.lcgBytes (r.st.rlcStatuses r.st.channels).1

/-- The best priorities of the second status queries (R525). -/
def LcpProgress.bests (r : LcpProgress) : List Nat := r.st.lcgBest (r.st.rlcStatuses r.st.channels).1

/-- The BSR that the second status queries and the space left select (R522). -/
def LcpProgress.bsr (r : LcpProgress) : List Byte := bsrBytes r.remain r.totals r.bests

/-- The format code of the BSR (R542). -/
def LcpProgress.format (r : LcpProgress) : Nat := bsrFormat r.remain (lcgsWithData r.totals).length

theorem lcpFinish_eq (d : LcpDesc) (trig aborted : Bool) (r : LcpProgress) : lcpFinish d trig aborted r =
    { r.st with
      mem := writeBytes r.st.mem d.outAddr (r.out ++ r.bsr ++ paddingBytes (r.remain - r.bsr.length))
      rlc := r.st.rlc.drop r.st.channels.length
      draws := (r.st.rlcStatuses r.st.channels).2.draws
      prevLcgData := lcgBitmap r.totals
      prevBestPrio := r.bests.foldl min 255
      bsrRegularPending := if r.format = 0 then r.st.bsrRegularPending else false
      ports := r.st.ports.modify r.st.cur fun p =>
        { p with
          res0 := BitVec.ofNat 32 r.out.length
          res1 := lcpRes1 r.format trig r.bsr.length
          status := BitVec.ofInt 32 (if aborted then okLcpAborted else statusOk)
          busy := false } } := by
  have hframe := (r.st.rlcStatuses_frame r.st.channels).2
  have hrlc := r.st.rlcStatuses_rlc r.st.channels
  rw [← hrlc]
  unfold lcpFinish LcpProgress.format LcpProgress.bsr LcpProgress.totals LcpProgress.bests
  generalize r.st.rlcStatuses r.st.channels = q at hframe
  simp only [State.ret, State.setRes0, State.setRes1, State.modPort, List.modify_modify_eq, State.triggerRemember]
  rw [hframe]
  rfl

theorem lcpFinish_mem (d : LcpDesc) (trig aborted : Bool) (r : LcpProgress) : (lcpFinish d trig aborted r).mem =
    writeBytes r.st.mem d.outAddr (r.out ++ r.bsr ++ paddingBytes (r.remain - r.bsr.length)) := by
  simp only [lcpFinish_mem_of_statuses, State.rlcStatuses_mem]
  rfl

theorem readBytes_lcpEnd (d : LcpDesc) (s : State) :
    readBytes (lcpEnd d s).mem d.outAddr (lcpServeAll d s).1.out.length = (lcpServeAll d s).1.out := by
  rw [lcpEnd, lcpFinish_mem, List.append_assoc, readBytes_writeBytes_append]

/-- A command that leaves the PTB running and never waits ends normally. -/
theorem commandBody_ok_of_exec {i : Instr} {s t : State} (h : exec i s = .next t) (ht : t.halted = false)
    (hi : ¬Acquires i) : commandBody s i = .ok t := by
  rw [exec_eq_finish, Host.Outcome.next.injEq] at h
  subst h
  rcases finish_cases s (commandBody s i) with ⟨t, hbody, he⟩ | ⟨c, -, he⟩ | ⟨l, hbody, -⟩
  · rw [he, hbody]
  · rw [he] at ht
    cases ht
  · exact absurd (commandBody_held hbody).1 hi

/-- Settles O38: one lemma for each part, from the fuel of the passes down to the turn of one channel. -/
theorem lcpPassesEnd : Obligations.LcpPassesEnd := by
  refine ⟨fun r fuel => lcpPasses_fuel_from_zero, fun fuel pass r => ⟨lcpPasses_done, lcpPasses_pass⟩,
    ?run, fun pass r => rfl, ?turn⟩
  case run =>
    intro s t daddr hexec hs ht d u q out
    have hbody := commandBody_ok_of_exec hexec ht (by simp [Acquires])
    have hout : (lcpServeAll d u).1.out = out := lcpServeAll_out d u
    rw [eq_lcpEnd_of_lcpRunBody hbody, ← hout]
    exact readBytes_lcpEnd d u
  case turn =>
    intro pass ep r j l left cap req
    refine ⟨lcpTurn_idle, fun h3 hreq hj => ?_⟩
    have hserve : lcpTurn pass ep r j =
        lcpServe j (r.st.rlcData j req.toNat).1 { r with st := (r.st.rlcData j req.toNat).2 } := lcpTurn_asks h3 hreq
    obtain ⟨hlen, -⟩ := r.st.rlcData_frame j req.toNat
    have hdata := r.st.rlcData_lcOnly j req.toNat
    have hlc : (r.st.rlcData j req.toNat).2.lc = r.st.lc := (r.st.rlcData_quiet j req.toNat).lc
    have hfit : (r.st.rlcData j req.toNat).1.length + 3 ≤ r.remain := rlcData_fits h3 pass ep j l
    have hlisted := fun a rest (h : r.st.rlc = a :: rest) => State.rlcData_listed h j req.toNat
    generalize r.st.rlcData j req.toNat = q at hserve hlen hdata hlc hfit hlisted
    refine ⟨q.1, ((q.2.charge j q.1.length).rlcStatus j).1, by omega, fun a rest h => by rw [hlisted a rest h], ?_⟩
    intro r' hdr
    have hr' : r' = lcpServe j q.1 { r with st := q.2 } := hserve
    rw [hr']
    refine ⟨hdata.trans (lcpServe_lcOnly ..), fun hnil => ?_, fun hsome => ⟨fun a b rest h => ?_, ?_, ?_,
      lcpServe_remain hsome hfit, ?_⟩⟩
    · rw [hnil, lcpServe_nothing]
      exact ⟨hlc, rfl, rfl, rfl, rfl⟩
    · have hrest : (q.2.charge j q.1.length).rlc = b :: rest := by rw [hlisted a _ h, State.charge_rlc]
      rw [State.rlcStatus_listed hrest]
    · have hentry : q.2.lcEntry j = l := congrArg (fun lc => lc.getD j default) hlc
      rw [lcpServe_lc hsome (hlc ▸ hj), hlc, hentry]
    · rw [lcpServe_data hsome, List.append_assoc]
      rfl
    · rw [lcpServe_data hsome]
      exact ⟨rfl, rfl⟩

end Sys2Proof.Machine
end
section
/-! ### What the passes of LCP_RUN serve (spec/41_lcp_bsr.md R514 to R522) -/

namespace Sys2Proof.Machine

-- One proof after another, so that the threads of the whole text stay within the memory limit.
set_option Elab.async false

/-! #### The answers an LCP_RUN uses up (spec/20_memory.md R240, log 4) -/

/-- A query of each channel once answers with a function of the channel, and with the listed answers in turn. -/
theorem State.exists_statuses (s : State) {l : List Nat} (h : l.Nodup) :
    ∃ st : Nat → Nat, (s.rlcStatuses l).1 = l.map (fun j => (j, st j)) ∧
      ∀ (i j : Nat) (a : RlcAnswer), l[i]? = some j → s.rlc[i]? = some a → st j = a.status.toNat := by
  induction l generalizing s with
  | nil => exact ⟨fun _ => 0, rfl, fun i j a hi => by simp at hi⟩
  | cons k rest ih =>
    obtain ⟨hk, hrest⟩ := List.nodup_cons.mp h
    obtain ⟨st, hst, hlisted⟩ := ih (s.rlcStatus k).2 hrest
    have hne : ∀ j ∈ rest, j ≠ k := fun j hj hjk => hk (hjk ▸ hj)
    refine ⟨Function.update st k (s.rlcStatus k).1, ?_, fun i j a hi ha => ?_⟩
    · rw [State.rlcStatuses, hst, List.map_cons, Function.update_self]
      refine congrArg (List.cons _) (List.map_congr_left fun j hj => ?_)
      rw [Function.update_of_ne (hne j hj)]
    · cases i with
      | zero =>
        obtain rfl : k = j := by simpa using hi
        cases hs : s.rlc with
        | nil => simp [hs] at ha
        | cons b tail =>
          obtain rfl : b = a := by simpa [hs] using ha
          rw [Function.update_self, State.rlcStatus_listed hs]
      | succ i =>
        have hj : rest[i]? = some j := hi
        rw [Function.update_of_ne (hne j (List.mem_of_getElem? hj))]
        refine hlisted i j a hj ?_
        rwa [State.rlcStatus_rlc, List.getElem?_tail]

/-- Where listed answers are left, all answers up to here were listed ones, and the data of each SDU of the list are
cut from one of them. -/
def Answered (s t : State) (l : List (Nat × List Byte)) : Prop :=
  t.rlc ≠ [] → ∃ used, s.rlc = used ++ t.rlc ∧ ∀ x ∈ l, ∃ a ∈ used, x.2 <+: a.data

section
variable {s t : State} {l : List (Nat × List Byte)}

theorem Answered.nil (s : State) : Answered s s [] := fun _ => ⟨[], rfl, fun _ hx => by cases hx⟩

theorem Answered.mono {l' : List (Nat × List Byte)} (h : Answered s t l) (hsub : ∀ x ∈ l', x ∈ l) : Answered s t l' :=
  fun ht => by
    obtain ⟨used, hused, hl⟩ := h ht
    exact ⟨used, hused, fun x hx => hl x (hsub x hx)⟩

theorem Answered.status (h : Answered s t l) (j : Nat) : Answered s (t.rlcStatus j).2 l := by
  intro hne
  rw [State.rlcStatus_rlc] at hne
  obtain ⟨a, rest, ht⟩ := List.exists_cons_of_ne_nil (l := t.rlc) (by rintro he; simp [he] at hne)
  obtain ⟨used, hused, hl⟩ := h (by simp [ht])
  refine ⟨used ++ [a], by simp [State.rlcStatus_rlc, hused, ht], fun x hx => ?_⟩
  obtain ⟨b, hb, hpre⟩ := hl x hx
  exact ⟨b, List.mem_append_left _ hb, hpre⟩

theorem Answered.data (h : Answered s t l) (j n : Nat) :
    Answered s (t.rlcData j n).2 (l ++ [(j, (t.rlcData j n).1)]) := by
  intro hne
  rw [State.rlcData_rlc] at hne
  obtain ⟨a, rest, ht⟩ := List.exists_cons_of_ne_nil (l := t.rlc) (by rintro he; simp [he] at hne)
  obtain ⟨used, hused, hl⟩ := h (by simp [ht])
  refine ⟨used ++ [a], by simp [State.rlcData_rlc, hused, ht], fun x hx => ?_⟩
  rcases List.mem_append.mp hx with hx | hx
  · obtain ⟨b, hb, hpre⟩ := hl x hx
    exact ⟨b, List.mem_append_left _ hb, hpre⟩
  · rw [List.mem_singleton.mp hx, State.rlcData_listed ht]
    exact ⟨a, List.mem_append_right _ List.mem_cons_self, List.take_prefix ..⟩

end

/-! #### The SDUs served (R519, R522) -/

/-- The bytes of an SDU of a channel, behind its subheader (R519). -/
def sduBytes (x : Nat × List Byte) : List Byte := sduHeader x.1 x.2.length ++ x.2

/-- The bytes of channel `j` in the SDUs of a list. -/
def servedTo (l : List (Nat × List Byte)) (j : Nat) : Nat := ((l.filter fun x => x.1 == j).map fun x => x.2.length).sum

/-- A finite bucket pays for `k` bytes (R522). -/
def LcEntry.pay (k : Nat) (l : LcEntry) : LcEntry := { l with bj := if l.pbrInf then l.bj else l.bj - k }

theorem LcEntry.pay_zero (l : LcEntry) : l.pay 0 = l := by simp [LcEntry.pay]

theorem LcEntry.pay_pay (l : LcEntry) (k m : Nat) : (l.pay k).pay m = l.pay (k + m) := by
  by_cases h : l.pbrInf = true
  · simp [LcEntry.pay, h]
  · simp [LcEntry.pay, h, Int.sub_sub]

theorem servedTo_concat (l : List (Nat × List Byte)) (j : Nat) (data : List Byte) (i : Nat) :
    servedTo (l ++ [(j, data)]) i = servedTo l i + if i = j then data.length else 0 := by
  by_cases h : i = j
  · simp [servedTo, h]
  · simp [servedTo, h, Ne.symm h]

/-- The passes from `r₀` have served the SDUs of `l` so far and stand at `r`: what this does to the buckets, the bytes,
the space, the channels with data, and the oracle. -/
structure LcpServed (r₀ : LcpProgress) (l : List (Nat × List Byte)) (r : LcpProgress) : Prop where
  kept : LcOnly r₀.st r.st
  length : r.st.lc.length = r₀.st.lc.length
  entry : ∀ j, r.st.lcEntry j = (r₀.st.lcEntry j).pay (servedTo l j)
  out : r.out = r₀.out ++ l.flatMap sduBytes
  space : (l.flatMap sduBytes).length + r.remain = r₀.remain
  known : ∀ j ∈ r.ds, j ∈ r₀.ds
  sdus : ∀ x ∈ l, x.1 ∈ r₀.ds ∧ x.2 ≠ [] ∧ x.2.length + 3 ≤ r₀.remain
  answers : Answered r₀.st r.st l

section
variable {r₀ r : LcpProgress} {l : List (Nat × List Byte)} {j n : Nat}

theorem LcpServed.start (r₀ : LcpProgress) : LcpServed r₀ [] r₀ where
  kept := .refl _
  length := rfl
  entry j := (LcEntry.pay_zero _).symm
  out := (List.append_nil _).symm
  space := Nat.zero_add _
  known _ hj := hj
  sdus _ hx := by cases hx
  answers := .nil _

/-- The count of the bytes of a pass is not looked at. -/
theorem LcpServed.withServed (h : LcpServed r₀ l r) (k : Nat) : LcpServed r₀ l { r with served := k } :=
  ⟨h.kept, h.length, h.entry, h.out, h.space, h.known, h.sdus, h.answers⟩

theorem LcpServed.known_filter (h : LcpServed r₀ l r) (p : Nat → Bool) : ∀ i ∈ r.ds.filter p, i ∈ r₀.ds :=
  fun i hi => h.known i (List.mem_of_mem_filter hi)

/-- A request that the RLC answers with no byte uses up an answer and nothing else. -/
theorem LcpServed.nothing (h : LcpServed r₀ l r) (j n : Nat) :
    LcpServed r₀ l (lcpServe j [] { r with st := (r.st.rlcData j n).2 }) := by
  have hquiet := r.st.rlcData_quiet j n
  rw [lcpServe_nothing]
  exact ⟨h.kept.trans (r.st.rlcData_lcOnly j n), (congrArg List.length hquiet.lc).trans h.length,
    fun i => (hquiet.lcEntry i).trans (h.entry i), h.out, h.space, h.known_filter _, h.sdus,
    (h.answers.data j n).mono fun _ hx => List.mem_append_left _ hx⟩

/-- A request that the RLC answers with bytes appends one SDU, which its channel pays for. -/
theorem LcpServed.serve (h : LcpServed r₀ l r) (hlen : ∀ i ∈ r₀.ds, i < r₀.st.lc.length) (hj : j ∈ r₀.ds)
    (hdata : (r.st.rlcData j n).1 ≠ []) (hfit : (r.st.rlcData j n).1.length + 3 ≤ r.remain) :
    LcpServed r₀ (l ++ [(j, (r.st.rlcData j n).1)])
      (lcpServe j (r.st.rlcData j n).1 { r with st := (r.st.rlcData j n).2 }) := by
  have hanswers := h.answers.data j n
  have hkept := h.kept.trans (r.st.rlcData_lcOnly j n)
  have hlc := (r.st.rlcData_quiet j n).lc
  generalize r.st.rlcData j n = q at hdata hfit hanswers hkept hlc
  obtain ⟨data, st⟩ := q
  have hentry : ∀ i, st.lcEntry i = (r₀.st.lcEntry i).pay (servedTo l i) := fun i =>
    (congrArg (fun lc => lc.getD i default) hlc).trans (h.entry i)
  have hlength : st.lc.length = r₀.st.lc.length := (congrArg List.length hlc).trans h.length
  have hspace := lcpServe_remain (r := { r with st := st }) (j := j) hdata hfit
  have hroom := h.space
  constructor
  case kept => exact hkept.trans (lcpServe_lcOnly ..)
  case length => rw [lcpServe_data hdata, (State.rlcStatus_quiet _ j).lc, State.charge_lc, List.length_modify, hlength]
  case entry =>
    intro i
    rw [lcpServe_data hdata, (State.rlcStatus_quiet _ j).lcEntry, State.charge_lcEntry, servedTo_concat,
      ← LcEntry.pay_pay, ← hentry]
    by_cases hij : i = j
    · subst hij
      rw [if_pos ⟨rfl, hlength ▸ hlen i hj⟩, if_pos rfl]
      rfl
    · rw [if_neg fun hc => hij hc.1, if_neg hij, LcEntry.pay_zero]
  case out =>
    rw [lcpServe_data hdata, h.out, List.flatMap_append, List.flatMap_singleton, List.append_assoc]
    rfl
  case space =>
    rw [List.flatMap_append, List.flatMap_singleton, List.length_append, sduBytes]
    dsimp only at hspace ⊢
    omega
  case known =>
    rw [lcpServe_data hdata]
    dsimp only
    split
    · exact h.known
    · exact h.known_filter _
  case sdus =>
    intro x hx
    rcases List.mem_append.mp hx with hx | hx
    · exact h.sdus x hx
    · rw [List.mem_singleton.mp hx]
      dsimp only at hfit ⊢
      exact ⟨hj, hdata, by omega⟩
  case answers =>
    rw [lcpServe_data hdata]
    have hcharged : Answered r₀.st (st.charge j data.length) (l ++ [(j, data)]) := hanswers
    exact hcharged.status j

end

/-- The passes from `r₀` stand at `r` and have served the SDUs of `l` and then others. -/
def LcpExtends (r₀ : LcpProgress) (l : List (Nat × List Byte)) (r : LcpProgress) : Prop :=
  ∃ l', LcpServed r₀ (l ++ l') r

section
variable {r₀ r : LcpProgress} {l : List (Nat × List Byte)} (hlen : ∀ i ∈ r₀.ds, i < r₀.st.lc.length)
include hlen

theorem LcpExtends.turn (h : LcpExtends r₀ l r) (pass : Nat) (ep : Int) {j : Nat} (hj : j ∈ r₀.ds) :
    LcpExtends r₀ l (lcpTurn pass ep r j) := by
  obtain ⟨l', h⟩ := h
  rcases lcpTurn_cases pass ep r j with hidle | ⟨n, hfit, hserve⟩
  · rw [hidle]
    exact ⟨l', h⟩
  · rw [hserve]
    by_cases hdata : (r.st.rlcData j n).1 = []
    · exact ⟨l', by rw [hdata]; exact h.nothing j n⟩
    · exact ⟨_, List.append_assoc l l' _ ▸ h.serve hlen hj hdata hfit⟩

theorem LcpExtends.turns (h : LcpExtends r₀ l r) (pass : Nat) (ep : Int) {js : List Nat} (hjs : ∀ j ∈ js, j ∈ r₀.ds) :
    LcpExtends r₀ l (js.foldl (lcpTurn pass ep) r) :=
  List.foldlRecOn _ _ h fun _ hr j hj => hr.turn hlen pass ep (hjs j hj)

theorem LcpExtends.tiers (h : LcpExtends r₀ l r) (pass : Nat) (priorities : List Nat) :
    LcpExtends r₀ l (priorities.foldl (lcpTier pass) r) :=
  List.foldlRecOn _ _ h fun _ ⟨l', hr⟩ _ _ => LcpExtends.turns hlen ⟨l', hr⟩ _ _ (hr.known_filter _)

theorem LcpExtends.passes (h : LcpExtends r₀ l r) (fuel pass : Nat) : LcpExtends r₀ l (lcpPasses fuel pass r) := by
  induction fuel generalizing pass r with
  | zero => exact h
  | succ fuel ih =>
    obtain ⟨l', hl'⟩ := h
    have hpass : LcpExtends r₀ l (lcpPass pass { r with served := 0 }) :=
      LcpExtends.tiers hlen ⟨l', hl'.withServed 0⟩ pass _
    by_cases hdone : r.remain ≤ 3 ∨ r.ds = []
    · rw [lcpPasses_done hdone]
      exact ⟨l', hl'⟩
    · obtain ⟨h3, hds⟩ := not_or.mp hdone
      rw [lcpPasses_pass (not_le.mp h3) hds]
      split
      · exact hpass
      · exact ih hpass (pass + 1)

end

/-! #### The first SDU (R501, R515) -/

/-- A fold over a rising list starts with its first element that changes anything. -/
theorem foldl_from_first {β : Type} {l : List Nat} {a : Nat} (hl : l.Pairwise (· < ·)) (ha : a ∈ l)
    {f : β → Nat → β} {b : β} (hidle : ∀ i ∈ l, i < a → f b i = b) :
    ∃ post : List Nat, (∀ i ∈ post, i ∈ l) ∧ l.foldl f b = post.foldl f (f b a) := by
  obtain ⟨pre, post, rfl⟩ := List.append_of_mem ha
  have hpre : pre.foldl f b = b := List.foldlRecOn (motive := fun c => c = b) _ _ rfl fun c hc i hi => by
    rw [hc]
    exact hidle i (List.mem_append_left _ hi) ((List.pairwise_append.mp hl).2.2 i hi a List.mem_cons_self)
  refine ⟨post, fun i hi => List.mem_append_right _ (List.mem_cons_of_mem _ hi), ?_⟩
  rw [List.foldl_append, hpre, List.foldl_cons]

/-- What channel `j` asks for in the first pass (R515). -/
def LcpProgress.firstRequest (r : LcpProgress) (j : Nat) : Int :=
  if (r.st.lcEntry j).pbrInf then (r.remain : Int) - 3
  else min (firstPassCap r.st.build (r.st.lcEntry j)) ((r.remain : Int) - 3)

/-- Channel `j` has data and asks for bytes, and comes first of the channels that do (R501, R515). -/
structure LcpProgress.FirstToAsk (r : LcpProgress) (j : Nat) : Prop where
  data : j ∈ r.ds
  asks : 0 < r.firstRequest j
  first : ∀ i ∈ r.ds, 0 < r.firstRequest i → i ≠ j →
    (r.st.lcEntry j).priority < (r.st.lcEntry i).priority ∨
      ((r.st.lcEntry j).priority = (r.st.lcEntry i).priority ∧ j < i)

theorem LcpProgress.FirstToAsk.unique {r : LcpProgress} {i j : Nat} (hi : r.FirstToAsk i) (hj : r.FirstToAsk j) :
    i = j := by
  by_contra hne
  have hij := hi.first j hj.data hj.asks (Ne.symm hne)
  have hji := hj.first i hi.data hi.asks hne
  omega

section
variable {r : LcpProgress} {j : Nat} {a : RlcAnswer} {rest : List RlcAnswer}

/-- A channel before the first that asks leaves everything as it is. -/
theorem LcpProgress.FirstToAsk.idle (hj : r.FirstToAsk j) {i : Nat} (hi : i ∈ r.ds)
    (hbefore : (r.st.lcEntry i).priority < (r.st.lcEntry j).priority ∨
      ((r.st.lcEntry i).priority = (r.st.lcEntry j).priority ∧ i < j)) (ep : Int) : lcpTurn 0 ep r i = r := by
  refine lcpTurn_idle (.inr (not_lt.mp fun hask => ?_))
  have hne : i ≠ j := by
    rintro rfl
    omega
  have hfirst := hj.first i hi hask hne
  omega

/-- The first channel that asks is served the first listed answer, cut to its request. -/
theorem LcpProgress.FirstToAsk.served (hj : r.FirstToAsk j) (h3 : 3 < r.remain)
    (hlen : ∀ i ∈ r.ds, i < r.st.lc.length) (hrlc : r.st.rlc = a :: rest) (hdata : a.data ≠ []) (ep : Int) :
    LcpServed r [(j, a.data.take (r.firstRequest j).toNat)] (lcpTurn 0 ep r j) := by
  have hserve : lcpTurn 0 ep r j = lcpServe j (r.st.rlcData j (r.firstRequest j).toNat).1
      { r with st := (r.st.rlcData j (r.firstRequest j).toNat).2 } := lcpTurn_asks h3 hj.asks
  have hanswer := State.rlcData_listed hrlc j (r.firstRequest j).toNat
  have hsome : (r.st.rlcData j (r.firstRequest j).toNat).1 ≠ [] := by
    rw [hanswer]
    simp [hdata, hj.asks]
  have hserved := (LcpServed.start r).serve hlen hj.data hsome (rlcData_fits h3 0 ep j (r.st.lcEntry j))
  rw [← hserve, hanswer] at hserved
  exact hserved

/-- The SDU of the first channel that asks is the first of the first pass. -/
theorem lcpPass_first (hj : r.FirstToAsk j) (h3 : 3 < r.remain) (hsorted : r.ds.Pairwise (· < ·))
    (hlen : ∀ i ∈ r.ds, i < r.st.lc.length) (hprio : (r.st.lcEntry j).priority < 256) (hrlc : r.st.rlc = a :: rest)
    (hdata : a.data ≠ []) : LcpExtends r [(j, a.data.take (r.firstRequest j).toNat)] (lcpPass 0 r) := by
  have hidle : ∀ p < (r.st.lcEntry j).priority, lcpTier 0 r p = r := fun p hp =>
    List.foldlRecOn (motive := fun c => c = r) _ _ rfl fun c hc i hi => by
      obtain ⟨hi, hpi⟩ := List.mem_filter.mp hi
      rw [hc]
      exact hj.idle hi (.inl ((eq_of_beq hpi).trans_lt hp)) _
  obtain ⟨later, -, htiers⟩ := foldl_from_first (f := lcpTier 0) (b := r) List.pairwise_lt_range
    (List.mem_range.mpr hprio) fun p _ hp => hidle p hp
  rw [lcpPass, htiers]
  refine LcpExtends.tiers hlen ?_ 0 later
  unfold lcpTier
  dsimp only
  generalize ((r.remain : Int) - 3 * _) / _ = ep
  have hmem : j ∈ r.ds.filter fun i => (r.st.lcEntry i).priority == (r.st.lcEntry j).priority :=
    List.mem_filter.mpr ⟨hj.data, beq_self_eq_true _⟩
  obtain ⟨others, hothers, hturns⟩ := foldl_from_first (f := lcpTurn 0 ep) (b := r) (hsorted.filter _) hmem
    fun i hi hij => by
      obtain ⟨hi, hpi⟩ := List.mem_filter.mp hi
      exact hj.idle hi (.inr ⟨eq_of_beq hpi, hij⟩) ep
  rw [hturns]
  exact LcpExtends.turns hlen ⟨[], hj.served h3 hlen hrlc hdata ep⟩ 0 ep fun i hi =>
    List.mem_of_mem_filter (hothers i hi)

/-- What the passes serve: some list of SDUs, which starts with that of the first channel to ask, if the RLC gives it
data. -/
theorem exists_lcpServed (r : LcpProgress) (fuel : Nat) (hserved : r.served = 0) (hsorted : r.ds.Pairwise (· < ·))
    (hlen : ∀ i ∈ r.ds, i < r.st.lc.length) (hprio : ∀ i ∈ r.ds, (r.st.lcEntry i).priority < 256) :
    ∃ l, LcpServed r l (lcpPasses (fuel + 1) 0 r) ∧
      ∀ j a, 3 < r.remain → r.FirstToAsk j → r.st.rlc.head? = some a → a.data ≠ [] →
        l.head? = some (j, a.data.take (r.firstRequest j).toNat) := by
  by_cases h : ∃ j a, 3 < r.remain ∧ r.FirstToAsk j ∧ r.st.rlc.head? = some a ∧ a.data ≠ []
  · obtain ⟨j, a, h3, hj, ha, hdata⟩ := h
    obtain ⟨rest, hrlc⟩ : ∃ rest, r.st.rlc = a :: rest := ⟨_, List.eq_cons_of_mem_head? ha⟩
    have hfirst := lcpPass_first hj h3 hsorted hlen (hprio j hj.data) hrlc hdata
    have hfresh : ({ r with served := 0 } : LcpProgress) = r := by rw [← hserved]
    obtain ⟨l, hl⟩ := hfirst.passes hlen fuel 1
    refine ⟨[(j, a.data.take (r.firstRequest j).toNat)] ++ l, ?_, fun i b _ hi hb _ => ?_⟩
    · rw [lcpPasses_pass h3 (List.ne_nil_of_mem hj.data), hfresh, if_neg (by omega)]
      exact hl
    · obtain rfl := hi.unique hj
      obtain rfl : a = b := Option.some.inj (ha.symm.trans hb)
      rfl
  · obtain ⟨l, hl⟩ := LcpExtends.passes hlen ⟨[], LcpServed.start r⟩ (l := []) (fuel + 1) 0
    exact ⟨_, hl, fun j a h3 hj ha hdata => absurd ⟨j, a, h3, hj, ha, hdata⟩ h⟩

end

end Sys2Proof.Machine
end
section
/-! ### LCP_RUN builds one MAC PDU (spec/41_lcp_bsr.md R510 to R525, R550, R551) -/

namespace Sys2Proof.Machine

-- One proof after another, so that the threads of the whole text stay within the memory limit.
set_option Elab.async false

/-! #### What is said of a channel by its configuration alone (R513, R525) -/

/-- The channels of two states have the same configuration. -/
structure SameChannels (s t : State) : Prop where
  configured : ∀ j, (t.lcEntry j).configured = (s.lcEntry j).configured
  priority : ∀ j, (t.lcEntry j).priority = (s.lcEntry j).priority
  lcg : ∀ j, (t.lcEntry j).lcg = (s.lcEntry j).lcg

section
variable {s t : State}

theorem SameChannels.channels (h : SameChannels s t) : t.channels = s.channels := by
  simp only [State.channels, h.configured]

theorem SameChannels.lcgBytes (h : SameChannels s t) (st : List (Nat × Nat)) : t.lcgBytes st = s.lcgBytes st := by
  simp only [State.lcgBytes, h.lcg]

theorem SameChannels.lcgBest (h : SameChannels s t) (st : List (Nat × Nat)) : t.lcgBest st = s.lcgBest st := by
  simp only [State.lcgBest, State.bestPriority, h.lcg, h.priority]

end

section
variable {s : State}

theorem State.mem_channels {j : Nat} : j ∈ s.channels ↔ j < 33 ∧ (s.lcEntry j).configured = true := by
  simp [State.channels]

theorem State.channels_pairwise (s : State) : s.channels.Pairwise (· < ·) := List.pairwise_lt_range.filter _

theorem State.channels_nodup (s : State) : s.channels.Nodup := List.nodup_range.filter _

/-- Only entries of the table are configured. -/
theorem State.lt_of_configured {j : Nat} (h : (s.lcEntry j).configured = true) : j < s.lc.length := by
  by_contra hj
  rw [State.lcEntry, List.getD_eq_default _ _ (not_lt.mp hj)] at h
  cases h

theorem State.lcEntry_mem {j : Nat} (h : j < s.lc.length) : s.lcEntry j ∈ s.lc := by
  rw [State.lcEntry, List.getD_eq_getElem _ _ h]
  exact List.getElem_mem h

/-! #### Totals and best priorities of a round of answers (R525) -/

theorem withData_map (l : List Nat) (st : Nat → Nat) :
    withData (l.map fun j => (j, st j)) = l.filter fun j => decide (0 < st j) := by
  simp [withData, List.filter_map, Function.comp_def]

theorem State.lcgBytes_map (l : List Nat) (st : Nat → Nat) : s.lcgBytes (l.map fun j => (j, st j)) =
    (List.range 8).map fun g => ((l.filter fun j => (s.lcEntry j).lcg == g).map st).sum := by
  simp [State.lcgBytes, List.filter_map, Function.comp_def]

theorem State.lcgBest_map (l : List Nat) (st : Nat → Nat) : s.lcgBest (l.map fun j => (j, st j)) =
    (List.range 8).map fun g => ((l.filter fun j => (s.lcEntry j).lcg == g && decide (0 < st j)).map
      fun j => (s.lcEntry j).priority).foldl min 255 := by
  simp only [State.lcgBest, State.bestPriority, withData_map, List.filter_filter]

/-! #### The trigger (R550) -/

theorem foldl_min_lt_iff (l : List Nat) (b p : Nat) : l.foldl min b < p ↔ b < p ∨ ∃ x ∈ l, x < p := by
  induction l generalizing b with
  | nil => simp
  | cons x rest ih =>
    rw [List.foldl_cons, ih, min_lt_iff, List.exists_mem_cons_iff, or_assoc]

/-- Data comes where no LCG had any, or for a better priority than before. -/
def State.FreshData (s : State) (js : List Nat) : Prop :=
  ∃ j ∈ js, s.prevLcgData = 0 ∨ (s.lcEntry j).priority < s.prevBestPrio

theorem State.freshData_iff {js : List Nat} (hprio : ∀ j ∈ js, (s.lcEntry j).priority ≤ 255) : s.FreshData js ↔
    js ≠ [] ∧ (s.prevLcgData = 0 ∨ s.bestPriority js < s.prevBestPrio) := by
  simp only [State.FreshData, State.bestPriority, foldl_min_lt_iff, List.mem_map, exists_exists_and_eq_and]
  constructor
  · rintro ⟨j, hj, h⟩
    exact ⟨List.ne_nil_of_mem hj, h.imp_right fun h => .inr ⟨j, hj, h⟩⟩
  · rintro ⟨hne, h⟩
    obtain ⟨j, hj⟩ := List.exists_mem_of_ne_nil js hne
    rcases h with h | h | ⟨i, hi, h⟩
    · exact ⟨j, hj, .inl h⟩
    · exact ⟨j, hj, .inr ((hprio j hj).trans_lt h)⟩
    · exact ⟨i, hi, .inr h⟩

/-- The trigger is pending after the evaluation when it was before or when the data is fresh. -/
theorem State.triggerEval_pending_iff {st : List (Nat × Nat)}
    (hprio : ∀ j ∈ withData st, (s.lcEntry j).priority ≤ 255) :
    (s.triggerEval st).bsrRegularPending = true ↔ s.bsrRegularPending = true ∨ s.FreshData (withData st) := by
  rw [State.freshData_iff hprio, State.triggerEval]
  split
  · rename_i h
    exact iff_of_true rfl (.inr h)
  · rename_i h
    exact (or_iff_left h).symm

end

/-! #### The credit (R510, R511) -/

section
variable (s : State) (now : Nat)

theorem State.creditAll_lcEntry (j : Nat) : (s.creditAll now).lcEntry j =
    if (s.lcEntry j).configured then (s.lcEntry j).credit s.spf now else s.lcEntry j := by
  rw [State.lcEntry, State.creditAll_lc, getD_map]
  split
  · rfl
  · rename_i hj
    have hdefault : s.lcEntry j = default := List.getD_eq_default _ _ (not_lt.mp hj)
    rw [hdefault]
    rfl

theorem State.creditAll_same : SameChannels s (s.creditAll now) := by
  constructor <;> intro j <;> rw [State.creditAll_lcEntry]
  all_goals
    split
    · rfl
    · rfl

/-- What a finite bucket holds once it is credited (R510). -/
def State.creditOf (j : Nat) : Int :=
  min ((s.lcEntry j).bj + (s.lcEntry j).pbrMs * (((now : Int) - (s.lcEntry j).lastUpdate) % (1024 * s.spf : Nat)))
    (s.lcEntry j).bucketSize

/-- A channel is eligible once the buckets are credited (R513). -/
def State.EligibleAt (j : Nat) : Prop :=
  (s.lcEntry j).configured = true ∧ ((s.lcEntry j).pbrInf = true ∨ 0 < s.creditOf now j)

theorem State.mem_eligible_creditAll (hlen : s.lc.length = 33) {j : Nat} :
    j ∈ (s.creditAll now).eligible ↔ s.EligibleAt now j := by
  have hin := fun hc : (s.lcEntry j).configured = true => hlen ▸ State.lt_of_configured hc
  rw [State.eligible, (s.creditAll_same now).channels, List.mem_filter, State.mem_channels, State.creditAll_lcEntry,
    State.EligibleAt]
  by_cases hc : (s.lcEntry j).configured = true
  · by_cases hinf : (s.lcEntry j).pbrInf = true
    · simp [hc, hin hc, LcEntry.credit, hinf]
    · simp [hc, hin hc, LcEntry.credit, hinf, State.creditOf]
  · simp [hc]

end

/-! #### Where the passes begin (R513, R518, R520) -/

/-- Where an LCP_RUN stands after its first status queries; an abort is logged by then. -/
def lcpBegin (d : LcpDesc) (s : State) : LcpProgress :=
  let r := lcpStart d.buflen (s.rlcStatuses s.channels).1 (lcpTriggered s)
  { r with st := if r.aborted then r.st.log okLcpAborted d.frame d.slot else r.st }

/-- Where it stands after its passes, of which an aborted one has none. -/
def lcpDone (d : LcpDesc) (s : State) : LcpProgress := lcpPasses (d.buflen + 2) 0 (lcpBegin d s)

section
variable (d : LcpDesc) (s : State)

theorem lcpServeAll_eq :
    lcpServeAll d s = (lcpDone d s, (lcpBegin d s).aborted, (lcpTriggered s).bsrRegularPending) := by
  unfold lcpServeAll lcpDone lcpBegin lcpTriggered
  dsimp only
  generalize hr : lcpStart d.buflen (s.rlcStatuses s.channels).1 _ = r
  have hst : r.st = (s.rlcStatuses s.channels).2.triggerEval (s.rlcStatuses s.channels).1 := by rw [← hr]; rfl
  by_cases h : r.aborted = true
  · obtain ⟨h3, -⟩ := of_decide_eq_true h
    have hdone : ∀ t : State, lcpPasses (d.buflen + 2) 0 { r with st := t } = { r with st := t } := fun t =>
      lcpPasses_done (.inl h3)
    rw [if_pos h, if_pos h, hdone, hst]
    rfl
  · rw [if_neg h, if_neg h]

/-- The first status queries and the trigger change the oracle and the trigger only. -/
theorem lcpTriggered_frame : lcpTriggered s =
    { s with
      rlc := s.rlc.drop s.channels.length
      draws := (lcpTriggered s).draws
      bsrRegularPending := (lcpTriggered s).bsrRegularPending } := by
  have hframe := (s.rlcStatuses_frame s.channels).2
  have hrlc := s.rlcStatuses_rlc s.channels
  unfold lcpTriggered
  generalize s.rlcStatuses s.channels = q at hframe hrlc
  rw [← hrlc, State.triggerEval]
  split
  · rw [hframe]
  · rw [hframe]

theorem lcpBegin_st : (lcpBegin d s).st =
    { s with
      rlc := s.rlc.drop s.channels.length
      draws := (lcpTriggered s).draws
      bsrRegularPending := (lcpTriggered s).bsrRegularPending
      errLog := if (lcpBegin d s).aborted then s.errLog ++ [⟨2, d.frame, d.slot⟩] else s.errLog } := by
  have hdef : (lcpBegin d s).st = if (lcpBegin d s).aborted then (lcpTriggered s).log okLcpAborted d.frame d.slot
      else lcpTriggered s := rfl
  rw [hdef, lcpTriggered_frame]
  split <;> rfl

theorem mem_lcpBegin_ds {j : Nat} {st : Nat → Nat}
    (hst : (s.rlcStatuses s.channels).1 = s.channels.map fun j => (j, st j)) :
    j ∈ (lcpBegin d s).ds ↔ j ∈ s.eligible ∧ 0 < st j := by
  have hdef : (lcpBegin d s).ds =
      (lcpTriggered s).eligible.filter fun j => decide (j ∈ withData (s.rlcStatuses s.channels).1) := rfl
  have heligible : (lcpTriggered s).eligible = s.eligible := by
    rw [lcpTriggered_frame]
    rfl
  rw [hdef, heligible, hst, withData_map, List.mem_filter, decide_eq_true_eq, List.mem_filter, decide_eq_true_eq]
  exact and_congr_right fun hj => and_iff_right (List.mem_of_mem_filter hj)

theorem lcpBegin_ds_pairwise : (lcpBegin d s).ds.Pairwise (· < ·) :=
  ((State.channels_pairwise _).filter _).filter _

end

/-! #### The end of LCP_RUN (R522 to R525) -/

/-- The padding behind `n` bytes in a room of `room` bytes (R523). -/
theorem paddingBytes_sub {room n : Nat} (h : n ≤ room) :
    paddingBytes (room - n) = if room = n then [] else 0x3F :: List.replicate (room - n - 1) 0 := by
  rw [paddingBytes]
  by_cases hfull : room = n
  · rw [if_pos hfull, if_pos (by omega)]
  · rw [if_neg hfull, if_neg (by omega)]

theorem lcpRes1_eq {fmt nb : Nat} (hfmt : fmt ≤ 4) (hnb : nb ≤ 11) (trig : Bool) :
    lcpRes1 fmt trig nb = BitVec.ofNat 32 (2 ^ 28 * fmt + (if trig then 2 ^ 27 else 0) + nb) := by
  rw [lcpRes1, Nat.mod_eq_of_lt (by omega), Nat.mod_eq_of_lt (by omega), Nat.mul_comm, flagNum]
  split <;> simp

/-- What the issuing port holds once its registers alone are changed. -/
theorem State.port_of_ports_eq {s t : State} {f : Port → Port} (h : s.cur < s.ports.length) (hcur : t.cur = s.cur)
    (hports : t.ports = s.ports.modify s.cur f) : t.port = f s.port := by
  rw [← State.modPort_port h f, State.port, State.port, hcur, hports]
  rfl

/-! #### One LCP_RUN from its first status queries to its end (R520) -/

/-- An LCP_RUN on a legal descriptor in a sound state: the state `u` with its buckets credited, the answers of its two
rounds of status queries, and the SDUs it serves in between. -/
structure LcpRun (s u : State) (d : LcpDesc) (st stF : Nat → Nat) (served : List (Nat × List Byte)) : Prop where
  legal : d.legal s.spf = true
  size : d.buflen ≤ 2 ^ 26
  length : s.lc.length = 33
  sound : ∀ l ∈ s.lc, l.Ok s.spf
  credit : u = s.creditAll (s.absSlot d.frame d.slot)
  first : (u.rlcStatuses u.channels).1 = u.channels.map fun j => (j, st j)
  firstListed : ∀ (i j : Nat) (a : RlcAnswer), s.channels[i]? = some j → s.rlc[i]? = some a → st j = a.status.toNat
  sdus : LcpServed (lcpBegin d u) served (lcpDone d u)
  firstSdu : ∀ j a, 3 < d.buflen → (lcpBegin d u).FirstToAsk j → s.rlc[s.channels.length]? = some a → a.data ≠ [] →
    served.head? = some (j, a.data.take ((lcpBegin d u).firstRequest j).toNat)
  second : ((lcpDone d u).st.rlcStatuses s.channels).1 = s.channels.map fun j => (j, stF j)
  secondListed : ∀ (i j : Nat) (a : RlcAnswer), s.channels[i]? = some j → (lcpDone d u).st.rlc[i]? = some a →
    stF j = a.status.toNat

theorem State.priority_le {s : State} (hsound : ∀ l ∈ s.lc, l.Ok s.spf) {j : Nat}
    (hc : (s.lcEntry j).configured = true) : (s.lcEntry j).priority ≤ 16 :=
  ((hsound _ (State.lcEntry_mem (State.lt_of_configured hc))).legal hc).2.1

theorem exists_lcpRun {s : State} {d : LcpDesc} (hlegal : d.legal s.spf = true) (hsize : d.buflen ≤ 2 ^ 26)
    (hlen : s.lc.length = 33) (hsound : ∀ l ∈ s.lc, l.Ok s.spf) :
    ∃ u st stF served, LcpRun s u d st stF served := by
  generalize hu : s.creditAll (s.absSlot d.frame d.slot) = u
  have hsame : SameChannels s u := hu ▸ s.creditAll_same _
  have hrlc : u.rlc = s.rlc := by rw [← hu, State.creditAll_rlc]
  obtain ⟨st, hst, hlisted⟩ := u.exists_statuses u.channels_nodup
  have hbegin := lcpBegin_st d u
  have hconf : ∀ j ∈ (lcpBegin d u).ds, (s.lcEntry j).configured = true := fun j hj => by
    have hin := List.mem_of_mem_filter ((mem_lcpBegin_ds d u hst).mp hj).1
    rw [hsame.channels] at hin
    exact (State.mem_channels.mp hin).2
  obtain ⟨served, hserved, hhead⟩ := exists_lcpServed (lcpBegin d u) (d.buflen + 1) rfl (lcpBegin_ds_pairwise d u)
    (fun j hj => by
      have hlt := State.lt_of_configured (hconf j hj)
      rwa [hbegin, ← hu, State.creditAll_lc, List.length_map])
    (fun j hj => by
      have hprio := State.priority_le hsound (hconf j hj)
      have hentry : (lcpBegin d u).st.lcEntry j = u.lcEntry j := by rw [hbegin]; rfl
      rw [hentry, hsame.priority]
      omega)
  obtain ⟨stF, hstF, hlistedF⟩ := (lcpDone d u).st.exists_statuses s.channels_nodup
  refine ⟨u, st, stF, served, hlegal, hsize, hlen, hsound, hu.symm, hst, hsame.channels ▸ hrlc ▸ hlisted, hserved,
    fun j a h3 hj ha hdata => hhead j a h3 hj ?_ hdata, hstF, hlistedF⟩
  rw [hbegin, hsame.channels, hrlc]
  simpa [List.head?_drop] using ha

namespace LcpRun

variable {s u : State} {d : LcpDesc} {st stF : Nat → Nat} {served : List (Nat × List Byte)}
  (h : LcpRun s u d st stF served)
include h

/-! ##### The channels -/

theorem sameCredited : SameChannels s u := h.credit ▸ s.creditAll_same _

theorem entry (j : Nat) : (lcpDone d u).st.lcEntry j = (u.lcEntry j).pay (servedTo served j) := by
  rw [h.sdus.entry, lcpBegin_st]
  rfl

theorem same : SameChannels s (lcpDone d u).st := by
  have hcredit := h.sameCredited
  constructor <;> intro j <;> rw [h.entry]
  · exact hcredit.configured j
  · exact hcredit.priority j
  · exact hcredit.lcg j

theorem mem_ds {j : Nat} :
    j ∈ (lcpBegin d u).ds ↔ s.EligibleAt (s.absSlot d.frame d.slot) j ∧ 0 < st j := by
  rw [mem_lcpBegin_ds d u h.first, h.credit, State.mem_eligible_creditAll _ _ h.length]

/-- The passes leave the rest of the state alone; the trigger and an abort's log entry stand from before them. -/
theorem done_st : (lcpDone d u).st =
    { s with
      lc := (lcpDone d u).st.lc
      rlc := (lcpDone d u).st.rlc
      draws := (lcpDone d u).st.draws
      bsrRegularPending := (lcpTriggered u).bsrRegularPending
      errLog := if (lcpBegin d u).aborted then s.errLog ++ [⟨2, d.frame, d.slot⟩] else s.errLog } := by
  have hkept := h.sdus.kept
  rw [LcOnly, lcpBegin_st] at hkept
  refine hkept.trans ?_
  rw [h.credit]
  rfl

/-- What each channel's record holds at the end: a configured one is credited and has paid, another is as before. -/
theorem entry_eq (j : Nat) : (lcpDone d u).st.lcEntry j =
    if (s.lcEntry j).configured then
      { s.lcEntry j with
        bj := if (s.lcEntry j).pbrInf then (s.lcEntry j).bj
          else s.creditOf (s.absSlot d.frame d.slot) j - servedTo served j
        lastUpdate := s.absSlot d.frame d.slot }
    else s.lcEntry j := by
  rw [h.entry, h.credit, State.creditAll_lcEntry]
  by_cases hc : (s.lcEntry j).configured = true
  · rw [if_pos hc, if_pos hc]
    by_cases hinf : (s.lcEntry j).pbrInf = true
    · simp [LcEntry.pay, LcEntry.credit, hinf]
    · simp [LcEntry.pay, LcEntry.credit, hinf, State.creditOf]
  · rw [if_neg hc, if_neg hc]
    have hnone : served.filter (fun x => x.1 == j) = [] := List.filter_eq_nil_iff.mpr fun x hx hxj => by
      obtain ⟨⟨hconf, -⟩, -⟩ := h.mem_ds.mp (h.sdus.sdus x hx).1
      exact hc (eq_of_beq hxj ▸ hconf)
    rw [servedTo, hnone]
    exact LcEntry.pay_zero _

/-! ##### The totals, the BSR and the bytes -/

theorem totals_eq : (lcpDone d u).totals =
    (List.range 8).map fun g => ((s.channels.filter fun j => (s.lcEntry j).lcg == g).map stF).sum := by
  rw [LcpProgress.totals, h.same.channels, h.second, h.same.lcgBytes, State.lcgBytes_map]

theorem bests_eq : (lcpDone d u).bests =
    (List.range 8).map fun g => ((s.channels.filter fun j => (s.lcEntry j).lcg == g && decide (0 < stF j)).map
      fun j => (s.lcEntry j).priority).foldl min 255 := by
  rw [LcpProgress.bests, h.same.channels, h.second, h.same.lcgBest, State.lcgBest_map]

theorem out_eq : (lcpDone d u).out = served.flatMap sduBytes := h.sdus.out

theorem space : (served.flatMap sduBytes).length + (lcpDone d u).remain = d.buflen := h.sdus.space

theorem remain_eq : (lcpDone d u).remain = d.buflen - (served.flatMap sduBytes).length := by
  have hspace := h.space
  omega

/-- The SDUs, the BSR and the padding fill the buffer (R523, R524). -/
theorem pdu_length : ((lcpDone d u).out ++ (lcpDone d u).bsr ++
    paddingBytes ((lcpDone d u).remain - (lcpDone d u).bsr.length)).length = d.buflen := by
  have hspace := h.space
  have hbsr : (lcpDone d u).bsr.length ≤ min (lcpDone d u).remain 11 := bsrBytes_length_le ..
  simp only [List.length_append, paddingBytes_length, h.out_eq]
  omega

/-! ##### The abort and the trigger -/

theorem aborted_iff : (lcpBegin d u).aborted = true ↔
    d.buflen ≤ 3 ∧ ∃ j, s.EligibleAt (s.absSlot d.frame d.slot) j ∧ 0 < st j := by
  have hdef : (lcpBegin d u).aborted = decide (d.buflen ≤ 3 ∧ (lcpBegin d u).ds ≠ []) := rfl
  simp only [hdef, decide_eq_true_eq, ← h.mem_ds, Ne, List.eq_nil_iff_forall_not_mem, not_forall, not_not]

theorem served_eq_nil (h3 : d.buflen ≤ 3) : served = [] := by
  refine List.eq_nil_iff_forall_not_mem.mpr fun x hx => ?_
  obtain ⟨-, hne, hfit⟩ := h.sdus.sdus x hx
  have hpos := List.length_pos_iff.mpr hne
  change _ ≤ d.buflen at hfit
  omega

theorem pending_iff : (lcpTriggered u).bsrRegularPending = true ↔
    s.bsrRegularPending = true ∨
      ∃ j ∈ s.channels, 0 < st j ∧ (s.prevLcgData = 0 ∨ (s.lcEntry j).priority < s.prevBestPrio) := by
  have hsame := h.sameCredited
  have horacle := (u.rlcStatuses_frame u.channels).2
  have hentry : ∀ j, (u.rlcStatuses u.channels).2.lcEntry j = u.lcEntry j := (u.rlcStatuses_quiet _).lcEntry
  have hdata : withData (u.rlcStatuses u.channels).1 = s.channels.filter fun j => decide (0 < st j) := by
    rw [h.first, withData_map, hsame.channels]
  rw [lcpTriggered, State.triggerEval_pending_iff fun j hj => ?_, hdata, State.FreshData]
  · simp only [hentry, hsame.priority, List.mem_filter, decide_eq_true_eq, and_assoc]
    rw [horacle, h.credit]
    rfl
  · rw [hdata] at hj
    have hprio := State.priority_le h.sound (State.mem_channels.mp (List.mem_of_mem_filter hj)).2
    rw [hentry, hsame.priority]
    omega

/-! ##### The answers used up and the first SDU -/

/-- Where listed answers are left at the end, the last round of status queries took the last of those used. -/
theorem answers (hne : (lcpDone d u).st.rlc.drop s.channels.length ≠ []) :
    ∃ used, s.rlc = used ++ (lcpDone d u).st.rlc.drop s.channels.length ∧
      (∀ x ∈ served, ∃ a ∈ used, x.2 <+: a.data) ∧
      ∀ i j, s.channels[i]? = some j →
        ∃ a, used[used.length - s.channels.length + i]? = some a ∧ stF j = a.status.toNat := by
  have hlisted := h.secondListed
  have hanswered := h.sdus.answers
  rw [Answered, lcpBegin_st, h.sameCredited.channels, h.credit, State.creditAll_rlc, ← h.credit] at hanswered
  generalize (lcpDone d u).st.rlc = left at hne hlisted hanswered
  have hlong : s.channels.length < left.length := not_le.mp fun hle => hne (List.drop_of_length_le hle)
  obtain ⟨used, hused, hserved⟩ := hanswered fun hnil => by simp [hnil] at hlong
  refine ⟨s.rlc.take s.channels.length ++ used ++ left.take s.channels.length, ?_, fun x hx => ?_, fun i j hij => ?_⟩
  · rw [List.append_assoc, List.take_append_drop, List.append_assoc, ← hused, List.take_append_drop]
  · obtain ⟨a, ha, hpre⟩ := hserved x hx
    exact ⟨a, List.mem_append_left _ (List.mem_append_right _ ha), hpre⟩
  · obtain ⟨hi, -⟩ := List.getElem?_eq_some_iff.mp hij
    have hget : left[i]? = some (left[i]'(by omega)) := List.getElem?_eq_getElem _
    refine ⟨left[i]'(by omega), ?_, hlisted i j _ hij hget⟩
    rw [List.length_append, List.length_take_of_le hlong.le, Nat.add_sub_cancel,
      List.getElem?_append_right (Nat.le_add_right ..), Nat.add_sub_cancel_left, List.getElem?_take_of_lt hi, hget]

theorem firstRequest_eq {j : Nat} (hc : (s.lcEntry j).configured = true) : (lcpBegin d u).firstRequest j =
    if (s.lcEntry j).pbrInf then (d.buflen : Int) - 3 else
      min (match s.build.firstPassCap with
        | .bj => s.creditOf (s.absSlot d.frame d.slot) j
        | .pbr => ((s.lcEntry j).pbrMs : Int)) ((d.buflen : Int) - 3) := by
  have hentry : (lcpBegin d u).st.lcEntry j = (s.lcEntry j).credit s.spf (s.absSlot d.frame d.slot) := by
    have hlc : (lcpBegin d u).st.lcEntry j = u.lcEntry j := by rw [lcpBegin_st]; rfl
    rw [hlc, h.credit, State.creditAll_lcEntry, if_pos hc]
  have hbuild : (lcpBegin d u).st.build = s.build := by
    rw [lcpBegin_st, h.credit]
    rfl
  have hremain : (lcpBegin d u).remain = d.buflen := rfl
  rw [LcpProgress.firstRequest, hentry, hbuild, hremain]
  by_cases hinf : (s.lcEntry j).pbrInf = true
  · simp [LcEntry.credit, hinf]
  · cases hcap : s.build.firstPassCap
    · simp [LcEntry.credit, hinf, firstPassCap, hcap, State.creditOf]
    · simp [LcEntry.credit, hinf, firstPassCap, hcap]

/-- In the first pass an eligible channel with data asks for bytes unless its request is capped by a PBR of 0 (R515). -/
theorem firstRequest_pos_iff {j : Nat} (h3 : 3 < d.buflen) (hj : s.EligibleAt (s.absSlot d.frame d.slot) j) :
    0 < (lcpBegin d u).firstRequest j ↔
      ((s.lcEntry j).pbrInf = true ∨ s.build.firstPassCap = .bj ∨ 0 < (s.lcEntry j).pbrMs) := by
  obtain ⟨hc, hcredit⟩ := hj
  rw [h.firstRequest_eq hc]
  by_cases hinf : (s.lcEntry j).pbrInf = true
  · simp only [hinf, if_true, true_or, iff_true]
    omega
  · have hpos := hcredit.resolve_left hinf
    cases s.build.firstPassCap
    · simp [hinf, hpos, h3]
    · simp [hinf, h3]

/-- The channel that comes first of those that ask in the first pass (R501, R515). -/
theorem firstToAsk {j : Nat} (h3 : 3 < d.buflen)
    (hj : s.EligibleAt (s.absSlot d.frame d.slot) j ∧ 0 < st j ∧
      ((s.lcEntry j).pbrInf = true ∨ s.build.firstPassCap = .bj ∨ 0 < (s.lcEntry j).pbrMs))
    (hfirst : ∀ i, s.EligibleAt (s.absSlot d.frame d.slot) i ∧ 0 < st i ∧
        ((s.lcEntry i).pbrInf = true ∨ s.build.firstPassCap = .bj ∨ 0 < (s.lcEntry i).pbrMs) → i ≠ j →
      (s.lcEntry j).priority < (s.lcEntry i).priority ∨
        ((s.lcEntry j).priority = (s.lcEntry i).priority ∧ j < i)) : (lcpBegin d u).FirstToAsk j := by
  obtain ⟨heligible, hdata, hasks⟩ := hj
  have hprio : ∀ i, ((lcpBegin d u).st.lcEntry i).priority = (s.lcEntry i).priority := fun i => by
    rw [lcpBegin_st]
    exact h.sameCredited.priority i
  refine ⟨h.mem_ds.mpr ⟨heligible, hdata⟩, (h.firstRequest_pos_iff h3 heligible).mpr hasks, fun i hi hask hne => ?_⟩
  obtain ⟨helig, hst⟩ := h.mem_ds.mp hi
  rw [hprio, hprio]
  exact hfirst i ⟨helig, hst, (h.firstRequest_pos_iff h3 helig).mp hask⟩ hne

/-! ##### The end -/

theorem lcpEnd_eq : lcpEnd d u =
    { s with
      mem := writeBytes s.mem d.outAddr ((lcpDone d u).out ++ (lcpDone d u).bsr ++
        paddingBytes ((lcpDone d u).remain - (lcpDone d u).bsr.length))
      lc := (lcpDone d u).st.lc
      rlc := (lcpDone d u).st.rlc.drop s.channels.length
      draws := ((lcpDone d u).st.rlcStatuses s.channels).2.draws
      prevLcgData := lcgBitmap (lcpDone d u).totals
      prevBestPrio := (lcpDone d u).bests.foldl min 255
      bsrRegularPending := if (lcpDone d u).format = 0 then (lcpTriggered u).bsrRegularPending else false
      errLog := if (lcpBegin d u).aborted then s.errLog ++ [⟨2, d.frame, d.slot⟩] else s.errLog
      ports := s.ports.modify s.cur fun p =>
        { p with
          res0 := BitVec.ofNat 32 (lcpDone d u).out.length
          res1 := lcpRes1 (lcpDone d u).format (lcpTriggered u).bsrRegularPending (lcpDone d u).bsr.length
          status := BitVec.ofInt 32 (if (lcpBegin d u).aborted then okLcpAborted else statusOk)
          busy := false } } := by
  have hchannels := h.same.channels
  have hst := h.done_st
  rw [lcpEnd, lcpServeAll_eq]
  dsimp only
  rw [lcpFinish_eq, hchannels]
  rw [hst]

theorem lcpEnd_port (hcur : s.cur < s.ports.length) : (lcpEnd d u).port =
    { s.port with
      res0 := BitVec.ofNat 32 (lcpDone d u).out.length
      res1 := lcpRes1 (lcpDone d u).format (lcpTriggered u).bsrRegularPending (lcpDone d u).bsr.length
      status := BitVec.ofInt 32 (if (lcpBegin d u).aborted then okLcpAborted else statusOk)
      busy := false } := by
  have hports := congrArg State.ports h.lcpEnd_eq
  have hsame : (lcpEnd d u).cur = s.cur := by rw [h.lcpEnd_eq]
  exact State.port_of_ports_eq hcur hsame hports

/-- The end differs from the start in DMEM, the channels, the BSR trigger, the log, the oracle and the results only. -/
theorem lcpEnd_frame (hcur : s.cur < s.ports.length) {t : State} (ht : t = lcpEnd d u) : t =
    { s with
      mem := t.mem
      lc := t.lc
      bsrRegularPending := t.bsrRegularPending
      prevLcgData := t.prevLcgData
      prevBestPrio := t.prevBestPrio
      errLog := t.errLog
      rlc := t.rlc
      draws := t.draws
      ports := s.ports.modify s.cur fun p =>
        { p with res0 := t.port.res0, res1 := t.port.res1, status := t.port.status, busy := false } } := by
  have hport := h.lcpEnd_port hcur
  have hend := h.lcpEnd_eq
  rw [← ht] at hport hend
  rw [hport]
  exact hend.trans (by rw [hend])

/-- The buffer holds the SDUs, the BSR and the padding, and no other byte is written (R522 to R524). -/
theorem lcpEnd_bytes : readBytes (lcpEnd d u).mem d.outAddr d.buflen =
      (lcpDone d u).out ++ (lcpDone d u).bsr ++ paddingBytes ((lcpDone d u).remain - (lcpDone d u).bsr.length) ∧
    SameOutside s.mem (lcpEnd d u).mem d.outAddr d.buflen := by
  have hlength := h.pdu_length
  have hmem : (lcpEnd d u).mem = writeBytes s.mem d.outAddr ((lcpDone d u).out ++ (lcpDone d u).bsr ++
      paddingBytes ((lcpDone d u).remain - (lcpDone d u).bsr.length)) := by rw [h.lcpEnd_eq]
  rw [hmem]
  refine ⟨?_, sameOutside_writeBytes _ _ hlength⟩
  have hread := readBytes_writeBytes s.mem d.outAddr ((lcpDone d u).out ++ (lcpDone d u).bsr ++
    paddingBytes ((lcpDone d u).remain - (lcpDone d u).bsr.length))
  rwa [hlength] at hread

theorem lcpEnd_log : (lcpEnd d u).errLog =
    if (lcpBegin d u).aborted then s.errLog ++ [⟨2, d.frame, d.slot⟩] else s.errLog := by rw [h.lcpEnd_eq]

theorem lcpEnd_trigger : (lcpEnd d u).bsrRegularPending =
    if (lcpDone d u).format = 0 then (lcpTriggered u).bsrRegularPending else false := by rw [h.lcpEnd_eq]

theorem lcpEnd_aborted (hcur : s.cur < s.ports.length) (hab : (lcpBegin d u).aborted = true) :
    (lcpEnd d u).port.status = 2 ∧ (lcpEnd d u).errLog = s.errLog ++ [⟨2, d.frame, d.slot⟩] := by
  rw [h.lcpEnd_port hcur, h.lcpEnd_log, if_pos hab, if_pos hab]
  exact ⟨rfl, rfl⟩

theorem lcpEnd_not_aborted (hcur : s.cur < s.ports.length) (hab : ¬(lcpBegin d u).aborted = true) :
    (lcpEnd d u).port.status = 0 ∧ (lcpEnd d u).errLog = s.errLog := by
  rw [h.lcpEnd_port hcur, h.lcpEnd_log, if_neg hab, if_neg hab]
  exact ⟨rfl, rfl⟩

theorem lcpEnd_res1 (hcur : s.cur < s.ports.length) : (lcpEnd d u).port.res1 =
    BitVec.ofNat 32 (2 ^ 28 * (lcpDone d u).format + (if (lcpTriggered u).bsrRegularPending then 2 ^ 27 else 0) +
      (lcpDone d u).bsr.length) := by
  have hlength : (lcpDone d u).bsr.length ≤ min (lcpDone d u).remain 11 := bsrBytes_length_le ..
  rw [h.lcpEnd_port hcur]
  exact lcpRes1_eq (bsrFormat_le ..) (by omega) _

/-- A pending trigger shows in RES1 bit 27, and a BSR clears it (R520, R551). -/
theorem lcpEnd_pending (hcur : s.cur < s.ports.length) (hp : (lcpTriggered u).bsrRegularPending = true) :
    (lcpEnd d u).port.res1 =
        BitVec.ofNat 32 (2 ^ 28 * (lcpDone d u).format + 2 ^ 27 + (lcpDone d u).bsr.length) ∧
      (lcpEnd d u).bsrRegularPending = decide ((lcpDone d u).format = 0) := by
  rw [h.lcpEnd_res1 hcur, h.lcpEnd_trigger, hp]
  refine ⟨rfl, ?_⟩
  by_cases hnone : (lcpDone d u).format = 0
  · rw [if_pos hnone, decide_eq_true hnone]
  · rw [if_neg hnone, decide_eq_false hnone]

theorem lcpEnd_not_pending (hcur : s.cur < s.ports.length) (hp : (lcpTriggered u).bsrRegularPending = false) :
    (lcpEnd d u).port.res1 = BitVec.ofNat 32 (2 ^ 28 * (lcpDone d u).format + (lcpDone d u).bsr.length) ∧
      (lcpEnd d u).bsrRegularPending = false := by
  rw [h.lcpEnd_res1 hcur, h.lcpEnd_trigger, hp, if_neg Bool.false_ne_true, ite_self, Nat.add_zero]
  exact ⟨rfl, rfl⟩

theorem lcpEnd_lcEntry (j : Nat) : (lcpEnd d u).lcEntry j = (lcpDone d u).st.lcEntry j := by
  rw [h.lcpEnd_eq]
  rfl

/-- LCP_RUN on a legal descriptor passes its checks (R520). -/
theorem exec_eq {daddr : Nat} (hd : s.initDone = true) (hdesc : RegionOk s (4 * daddr) 12 4)
    (hbytes : d = lcpDescOfBytes (readBytes s.mem (4 * daddr) 12)) (hout : RegionOk s d.outAddr d.buflen 1)
    (hapart : d.outAddr + d.buflen ≤ 4 * daddr ∨ 4 * daddr + 12 ≤ d.outAddr) :
    exec (.lcpRun daddr) s = .next (lcpEnd d u) := by
  obtain ⟨hcredit, hend⟩ := lcpBuckets_inRange h.sound h.legal h.size
  have hclear : clearOf (d.outAddr, d.buflen) [descRegion daddr 12] = true := clearOf_singleton hapart
  have hlegal := h.legal
  rw [h.credit]
  subst hbytes
  exact exec_of_body_ok (require_bind_eq hd (readDesc_bind_eq hdesc (require_bind_eq hlegal
    (checkRegion_bind_eq hout (require_bind_eq hclear (require_bind_eq hcredit (require_bind_eq hend rfl)))))))

end LcpRun

/-- Settles O39: each part of the end of an LCP_RUN is one lemma of `LcpRun`. -/
theorem lcpRunBuildsOneMacPdu : Obligations.LcpRunBuildsOneMacPdu := by
  intro s daddr hshape hinv hd hdesc d L now chans cred eligible totals bests hres hframe hslot hbuflen hout hapart
  obtain ⟨hports, -, hlc, hport⟩ := hshape
  have hcur : s.cur < s.ports.length := hports ▸ hport
  obtain ⟨u, st, stF, served, h⟩ :=
    exists_lcpRun (LcpDesc.legal_iff.mpr ⟨hres, hframe, hslot, hbuflen⟩) hout.length_le hlc hinv.2
  refine ⟨lcpEnd d u, st, stF, served, ?_⟩
  intro body room ce fmt fresh aborted
  have hbody : (lcpDone d u).out = body := h.out_eq
  have hroom : (lcpDone d u).remain = room := h.remain_eq
  have htotals : (lcpDone d u).totals = totals stF := h.totals_eq
  have hbests : (lcpDone d u).bests = bests stF := h.bests_eq
  have hce : (lcpDone d u).bsr = ce := by rw [LcpProgress.bsr, hroom, htotals, hbests]
  have hfmt : (lcpDone d u).format = fmt := by rw [LcpProgress.format, hroom, htotals]
  have haborted : (lcpBegin d u).aborted = true ↔ aborted := h.aborted_iff
  have hpending : (lcpTriggered u).bsrRegularPending = true ↔ s.bsrRegularPending = true ∨ fresh := h.pending_iff
  have hspace : body.length + (lcpDone d u).remain = d.buflen := h.space
  have hfit : ce.length ≤ min room 11 := bsrBytes_length_le ..
  obtain ⟨hbytes, houtside⟩ := h.lcpEnd_bytes
  rw [hbody, hroom, hce, paddingBytes_sub (by omega)] at hbytes
  have hbits := h.lcpEnd_pending hcur
  have hclear := h.lcpEnd_not_pending hcur
  rw [hfmt, hce] at hbits hclear
  refine ⟨h.exec_eq hd hdesc rfl hout hapart, h.lcpEnd_frame hcur rfl, by omega, hbytes, houtside, fun x hx => ?sdus,
    h.firstListed, ?answers, ?firstSdu, fun hab => ⟨h.served_eq_nil hab.1, h.lcpEnd_aborted hcur (haborted.mpr hab)⟩,
    fun hran => h.lcpEnd_not_aborted hcur fun hab => hran (haborted.mp hab), ?res0, fun hp => hbits (hpending.mpr hp),
    fun hp => hclear (Bool.eq_false_iff.mpr fun hc => hp (hpending.mp hc)), fun g hg => ?lcgs, ?best, fun j => ?entries⟩
  case sdus =>
    obtain ⟨hds, hne, hlen⟩ := h.sdus.sdus x hx
    obtain ⟨heligible, hst⟩ := h.mem_ds.mp hds
    exact ⟨heligible, hst, hne, hlen⟩
  case answers =>
    rw [h.lcpEnd_eq]
    exact h.answers
  case firstSdu =>
    intro j a req asks h3 hj hfirst ha hdata
    have hhead := h.firstSdu j a h3 (h.firstToAsk h3 hj hfirst) ha hdata
    rw [h.firstRequest_eq hj.1.1] at hhead
    exact hhead
  case res0 => rw [h.lcpEnd_port hcur, hbody]
  case lcgs =>
    rw [h.lcpEnd_eq, htotals, getLsbD_lcgBitmap _ hg]
    simp [mem_lcgsWithData, hg]
  case best => rw [h.lcpEnd_eq, hbests]
  case entries =>
    rw [h.lcpEnd_lcEntry, h.entry_eq]
    rfl

end Sys2Proof.Machine
end
